-- ==== Sys2Proof/Word.lean ====
section
/-! DEFINITION. The word types of the machine (spec/00_scope.md R5, R7): all values are unsigned, bit 0 is
the least significant bit, and arithmetic on a register wraps at its width. -/

namespace Sys2Proof

/-- 8 bits: a V register, a timer, a byte of MEM, an immediate `kk`. -/
abbrev Byte := BitVec 8

/-- 16 bits: an opcode, I, PC, a stack slot. -/
abbrev Word := BitVec 16

/-- 12 bits: an immediate `nnn`. -/
abbrev Imm12 := BitVec 12

/-- The number of a V register (10_state.md R10): 0 to 15 selects V0 to VF directly. -/
abbrev Reg := Fin 16

/-- VF, the register that is also the machine's one flag (10_state.md R11). -/
abbrev regF : Reg := 15

end Sys2Proof
end

