-- ==== Sys2Proof/Syntax.lean ====
section
/-! DEFINITION. The instructions: one constructor for each row of the dispatch table of
spec/30_encoding.md R55 (rows 1 to 35), in the table's order, and `unmatched` for its default row 36 (R58).
Field names are those of R51; immediates are unsigned and unscaled (R53). -/

namespace Sys2Proof

inductive Instr where
  /-- 00E0 CLS (R70). -/
  | cls
  /-- 00EE RET (R72). -/
  | ret
  /-- 0nnn SYS nnn (R71), every 0nnn but the two above. -/
  | sys (nnn : Imm12)
  /-- 1nnn JP nnn (R73). -/
  | jp (nnn : Imm12)
  /-- 2nnn CALL nnn (R74). -/
  | call (nnn : Imm12)
  /-- 3xkk SE Vx, kk (R80). -/
  | seImm (x : Reg) (kk : Byte)
  /-- 4xkk SNE Vx, kk (R81). -/
  | sneImm (x : Reg) (kk : Byte)
  /-- 5xy0 SE Vx, Vy (R82). -/
  | seReg (x y : Reg)
  /-- 6xkk LD Vx, kk (R90). -/
  | ldImm (x : Reg) (kk : Byte)
  /-- 7xkk ADD Vx, kk (R91). -/
  | addImm (x : Reg) (kk : Byte)
  /-- 8xy0 LD Vx, Vy (R101). -/
  | ldReg (x y : Reg)
  /-- 8xy1 OR Vx, Vy (R102). -/
  | orReg (x y : Reg)
  /-- 8xy2 AND Vx, Vy (R103). -/
  | andReg (x y : Reg)
  /-- 8xy3 XOR Vx, Vy (R104). -/
  | xorReg (x y : Reg)
  /-- 8xy4 ADD Vx, Vy (R105). -/
  | addReg (x y : Reg)
  /-- 8xy5 SUB Vx, Vy (R106). -/
  | subReg (x y : Reg)
  /-- 8xy6 SHR Vx, Vy (R107); y is encoded and has no effect. -/
  | shr (x y : Reg)
  /-- 8xy7 SUBN Vx, Vy (R108). -/
  | subnReg (x y : Reg)
  /-- 8xyE SHL Vx, Vy (R109); y is encoded and has no effect. -/
  | shl (x y : Reg)
  /-- 9xy0 SNE Vx, Vy (R83). -/
  | sneReg (x y : Reg)
  /-- Annn LD I, nnn (R120). -/
  | ldI (nnn : Imm12)
  /-- Bnnn JP V0, nnn (R75). -/
  | jpV0 (nnn : Imm12)
  /-- Cxkk RND Vx, kk (R92). -/
  | rnd (x : Reg) (kk : Byte)
  /-- Dxyn DRW Vx, Vy, n (R131); n is a row count. -/
  | drw (x y : Reg) (n : Fin 16)
  /-- Ex9E SKP Vx (R84). -/
  | skp (x : Reg)
  /-- ExA1 SKNP Vx (R85). -/
  | sknp (x : Reg)
  /-- Fx07 LD Vx, DT (R140). -/
  | ldVxDt (x : Reg)
  /-- Fx0A LD Vx, K (R141). -/
  | ldVxK (x : Reg)
  /-- Fx15 LD DT, Vx (R142). -/
  | ldDtVx (x : Reg)
  /-- Fx18 LD ST, Vx (R143). -/
  | ldStVx (x : Reg)
  /-- Fx1E ADD I, Vx (R121). -/
  | addI (x : Reg)
  /-- Fx29 LD F, Vx (R122). -/
  | ldF (x : Reg)
  /-- Fx33 LD B, Vx (R124). -/
  | ldB (x : Reg)
  /-- Fx55 LD [I], Vx (R125); x is also the count. -/
  | storeRegs (x : Reg)
  /-- Fx65 LD Vx, [I] (R126); x is also the count. -/
  | loadRegs (x : Reg)
  /-- Row 36: a word that no row above selects (R58). It keeps the word, so that encoding it is exact
  (log entry 18). -/
  | unmatched (word : Word)
deriving DecidableEq, Repr

end Sys2Proof
end

