-- ==== Sys2Proof/WellFormed.lean ====
section
/-! DEFINITION. Which instructions are well formed: those that some word decodes to. Two constructors can
hold a word that belongs to another row: `sys` (rows 1 and 2 come first, spec/30_encoding.md R56) and
`unmatched` (R58). -/

namespace Sys2Proof

/-- The words of R58's table: exactly the five classes that no row 1 to 35 selects. Written from that table,
not from the decoder. -/
def isUnmatched (w : Word) : Bool :=
  let top : BitVec 4 := w.extractLsb' 12 4
  let low : BitVec 4 := w.extractLsb' 0 4
  let kk : Byte := w.extractLsb' 0 8
  (top == 0x5#4 && low != 0#4)
    || (top == 0x8#4 && [0x8#4, 0x9#4, 0xA#4, 0xB#4, 0xC#4, 0xD#4, 0xF#4].contains low)
    || (top == 0x9#4 && low != 0#4)
    || (top == 0xE#4 && !([0x9E#8, 0xA1#8].contains kk))
    || (top == 0xF#4
        && !([0x07#8, 0x0A#8, 0x15#8, 0x18#8, 0x1E#8, 0x29#8, 0x33#8, 0x55#8, 0x65#8].contains kk))

/-- Well-formedness: `sys` is neither CLS's nor RET's word (R56), `unmatched` holds an unmatched word (R58);
every field of every other constructor may take all its values (R51). -/
def Instr.wf : Instr → Bool
  | .sys nnn => nnn != 0x0E0#12 && nnn != 0x0EE#12
  | .unmatched w => isUnmatched w
  | .cls | .ret | .jp _ | .call _ | .seImm _ _ | .sneImm _ _ | .seReg _ _ | .ldImm _ _ | .addImm _ _
  | .ldReg _ _ | .orReg _ _ | .andReg _ _ | .xorReg _ _ | .addReg _ _ | .subReg _ _ | .shr _ _
  | .subnReg _ _ | .shl _ _ | .sneReg _ _ | .ldI _ | .jpV0 _ | .rnd _ _ | .drw _ _ _ | .skp _ | .sknp _
  | .ldVxDt _ | .ldVxK _ | .ldDtVx _ | .ldStVx _ | .addI _ | .ldF _ | .ldB _ | .storeRegs _
  | .loadRegs _ => true

end Sys2Proof
end

