-- ==== Sys2Proof/Config.lean ====
section
/-! DEFINITION. What is fixed for the machine (spec/00_scope.md R5) and its one free input, the draw `rnd`
(R6, 42_immediate.md R92). The other parameter of R6, `FONT`, is an argument of reset
(`State.resetWith` in Machine/HostOps.lean); its type and its default stand in Machine/Font.lean. -/

namespace Sys2Proof.Config

/-- MEM_SIZE of R5. -/
abbrev memSize : Nat := 4096

/-- FONT_BASE of R5. -/
abbrev fontBase : Nat := 0x000

/-- FONT_END of R5: the font fills the addresses below it. -/
abbrev fontEnd : Nat := 0x50

/-- PROG_BASE of R5: where `load_program` copies to, and where PC starts. -/
abbrev progBase : Nat := 0x200

/-- PROG_MAX of R5: the longest program image. -/
abbrev progMax : Nat := 3584

/-- The free value `rnd` of R6 and R92: the byte that the `k`-th executed Cxkk draws. It has no body, so
nothing constrains it and no two draws are related (log entry 2; mark DESIGN CHOICE, safe). -/
opaque rnd : Nat → Byte

end Sys2Proof.Config
end

