-- ==== Sys2Proof/Machine/Font.lean ====
section
/-! DEFINITION. The parameter `FONT` (spec/00_scope.md R6): the 80 bytes that MEM[0x000..0x04F] holds after
reset, glyph d at 5d (10_state.md R22). It is an argument of reset (`State.resetWith` in Machine/HostOps.lean).
The spec's source gives none of the bytes; the default that R22 offers, from general knowledge, is what the host
interface's `State.reset` takes (log entry 1; mark PRESUMED, unsafe). -/

namespace Sys2Proof.Machine

/-- The values that `FONT` may take: any 80 bytes (R6). -/
abbrev Font := Vector Byte 80

/-- Glyphs 0 to 7 of R22's default table. -/
def fontLow : List Byte :=
  [ 0xF0, 0x90, 0x90, 0x90, 0xF0,  0x20, 0x60, 0x20, 0x20, 0x70,
    0xF0, 0x10, 0xF0, 0x80, 0xF0,  0xF0, 0x10, 0xF0, 0x10, 0xF0,
    0x90, 0x90, 0xF0, 0x10, 0x10,  0xF0, 0x80, 0xF0, 0x10, 0xF0,
    0xF0, 0x80, 0xF0, 0x90, 0xF0,  0xF0, 0x10, 0x20, 0x40, 0x40 ]

/-- Glyphs 8 to F of R22's default table. -/
def fontHigh : List Byte :=
  [ 0xF0, 0x90, 0xF0, 0x90, 0xF0,  0xF0, 0x90, 0xF0, 0x10, 0xF0,
    0xF0, 0x90, 0xF0, 0x90, 0x90,  0xE0, 0x90, 0xE0, 0x90, 0xE0,
    0xF0, 0x80, 0x80, 0x80, 0xF0,  0xE0, 0x90, 0x90, 0x90, 0xE0,
    0xF0, 0x80, 0xF0, 0x80, 0xF0,  0xF0, 0x80, 0xF0, 0x80, 0x80 ]

/-- R22's default table, in address order. -/
def defaultFontBytes : List Byte := fontLow ++ fontHigh

/-- The default of `FONT` (decision D9). -/
def defaultFont : Font := ⟨defaultFontBytes.toArray, rfl⟩

end Sys2Proof.Machine
end

