-- ==== Sys2Proof/Machine/State.lean ====
section
/-! DEFINITION. The whole state of the core (spec/10_state.md), the causes of its faults, the reasons a step
of the host interface can stop, and the state after reset (R23, 70_reset_and_hazards.md R170). -/

namespace Sys2Proof.Machine

/-- MEM as plain data: the cells that differ from the reset contents, at strictly rising addresses. What an
unlisted address holds is `background` in Machine/Ops.lean; the form is `Memory.wf` there. -/
abbrev Memory := List Host.Cell

/-- FB: 32 rows of 64 one-bit pixels (R17). Bit px of row py is the pixel at column px; the layout is the
model's own (log entry 7), and pixels are reached by `pixel` and `togglePixel` of Machine/Ops.lean only. -/
abbrev Framebuffer := Vector (BitVec 64) 32

/-- The state, one field for each piece that the spec names; `draws` alone is the model's own. -/
structure State where
  /-- V[0] to V[15] (R10); V[15] is VF (R11). -/
  v : Vector Byte 16
  /-- I, the address register (R12). -/
  i : Word
  /-- PC (R13). -/
  pc : Word
  /-- SP, 0 to 15 (R14; log entry 9). -/
  sp : Fin 16
  /-- STACK[0] to STACK[15] (R15). -/
  stack : Vector Word 16
  /-- DT, the delay timer (R19). -/
  dt : Byte
  /-- ST, the sound timer (R19). -/
  st : Byte
  /-- MEM, 4096 bytes (R16, 20_memory.md R30). -/
  mem : Memory
  /-- FB, 64 by 32 pixels (R17). -/
  fb : Framebuffer
  /-- DRAW, the draw-pending flag (R18). -/
  draw : Bool
  /-- KEYS[0] to KEYS[15], true when pressed (R20). -/
  keys : Vector Bool 16
  /-- FAULT, 0 when no fault is latched (R21). -/
  fault : BitVec 3
  /-- The model's own: how many Cxkk have been executed, that is, which free value `Config.rnd` comes next
  (log entry 3; mark DESIGN CHOICE). -/
  draws : Nat
deriving DecidableEq, Repr

/-- The machine's faults with the `info` that 60_exceptions.md R156 records for each. They are not outcomes
of the host interface: raising one is a next state (`raise` in Machine/Ops.lean). -/
inductive Cause where
  /-- Raised by 2nnn when SP = 15 (R153): the PC of the CALL. -/
  | stackOverflow (pc : Word)
  /-- Raised by 00EE when SP = 0 (R153): the PC of the RET. -/
  | stackUnderflow (pc : Word)
  /-- Raised by Dxyn, Fx33, Fx55 and Fx65 (R154): the highest effective address. -/
  | memoryBounds (addr : Nat)
  /-- Raised by Ex9E and ExA1 (R155): the value of V[x]. -/
  | keyIndex (value : Byte)
deriving DecidableEq, Repr

/-- Why a step of the host interface could end in a fault: it never does. Every state of this machine has a
step (93_implementation_defined.md Part 1), its own faults being next states in which FAULT is latched
(60_exceptions.md R151, R152), so this type has no constructor. -/
inductive Fault where
deriving DecidableEq, Repr

/-- Why a step of the host interface could be refused. -/
inductive Refusal where
  /-- Raised by the arm of exec of an instruction that has no meaning yet; safe. No arm raises it now. -/
  | notModelled (mnemonic : String)
deriving DecidableEq, Repr

/-- The machine right after reset: the table of R23 (R170). MEM lists nothing, so every address holds its
reset contents: the default FONT, then zeros. `State.resetWith` of Machine/HostOps.lean is the reset for any FONT;
this one is its value at the default (log entry 1). `draws` is the model's own (log entry 3). -/
def State.reset : State where
  v := Vector.replicate 16 0
  i := 0
  pc := 0x0200
  sp := 0
  stack := Vector.replicate 16 0
  dt := 0
  st := 0
  mem := []
  fb := Vector.replicate 32 0
  draw := false
  keys := Vector.replicate 16 false
  fault := 0
  draws := 0

end Sys2Proof.Machine
end

