-- ==== Sys2Proof/Machine/Ops.lean ====
section
/-! DEFINITION. The primitives of spec/00_scope.md R8: reads and writes of each piece of state, memory,
fetch, the framebuffer, the call stack, and fault entry (60_exceptions.md R151). -/

namespace Sys2Proof.Machine

/-! ### Memory (20_memory.md) -/

/-- What an unlisted address of MEM holds: the reset contents (10_state.md R23) for the default FONT below 0x050,
and zero above. It fixes no FONT: a memory that holds another font lists the bytes that differ. -/
def background (a : Nat) : Byte := defaultFontBytes.getD a 0

/-- The canonical form of MEM: addresses strictly rising and inside MEM (R30), no entry equal to what an
unlisted address holds. -/
abbrev Memory.wf (m : Memory) : Prop :=
  m.Pairwise (fun p q => p.1 < q.1) ∧ ∀ c ∈ m, c.1 < Config.memSize ∧ c.2 ≠ background c.1

/-- The byte at an address of MEM (R30). -/
def Memory.read : Memory → Nat → Byte
  | [], a => background a
  | (b, w) :: m, a => if a = b then w else Memory.read m a

/-- Store a byte at an address, keeping the canonical form (R30). -/
def Memory.write : Memory → Nat → Byte → Memory
  | [], a, v => if v = background a then [] else [(a, v)]
  | (b, w) :: m, a, v =>
    if a < b then
      if v = background a then (b, w) :: m else (a, v) :: (b, w) :: m
    else if a = b then
      if v = background a then m else (a, v) :: m
    else (b, w) :: Memory.write m a v

/-- Store bytes at rising addresses from `base`, in order (R32, R41). -/
def Memory.writeBytes (m : Memory) (base : Nat) : List Byte → Memory
  | [] => m
  | b :: bs => Memory.writeBytes (Memory.write m base b) (base + 1) bs

/-- The `count` bytes at rising addresses from `base` (R32). -/
def Memory.readBytes (m : Memory) (base : Nat) : Nat → List Byte
  | 0 => []
  | count + 1 => Memory.read m base :: Memory.readBytes m (base + 1) count

/-! ### Register writes (R8) -/

/-- `V[x] <- b` (10_state.md R10). -/
def State.setV (s : State) (x : Reg) (b : Byte) : State := { s with v := s.v.set x b }

/-- All of V at once, for Fx65. -/
def State.setRegs (s : State) (v : Vector Byte 16) : State := { s with v := v }

/-- `I <- w`. -/
def State.setI (s : State) (w : Word) : State := { s with i := w }

/-- `PC <- w`. -/
def State.setPc (s : State) (w : Word) : State := { s with pc := w }

/-- `SP <- k`. -/
def State.setSp (s : State) (k : Fin 16) : State := { s with sp := k }

/-- `STACK[k] <- w`. -/
def State.setSlot (s : State) (k : Fin 16) (w : Word) : State := { s with stack := s.stack.set k w }

/-- `DT <- b`. -/
def State.setDt (s : State) (b : Byte) : State := { s with dt := b }

/-- `ST <- b`. -/
def State.setSt (s : State) (b : Byte) : State := { s with st := b }

/-- A new content of MEM. -/
def State.setMem (s : State) (m : Memory) : State := { s with mem := m }

/-- A new content of FB. -/
def State.setFb (s : State) (fb : Framebuffer) : State := { s with fb := fb }

/-- `DRAW <- b`. -/
def State.setDraw (s : State) (b : Bool) : State := { s with draw := b }

/-- `KEYS[k] <- b`; only the host does this (10_state.md R20). -/
def State.setKeyAt (s : State) (k : Fin 16) (b : Bool) : State := { s with keys := s.keys.set k b }

/-- `FAULT <- c`. -/
def State.setFault (s : State) (c : BitVec 3) : State := { s with fault := c }

/-- The next free value becomes the one after (log entry 3). -/
def State.countDraw (s : State) : State := { s with draws := s.draws + 1 }

/-! ### The program counter (10_state.md R13) -/

/-- `PC <- (PC + 2) mod 2^16`. -/
def advance (s : State) : State := s.setPc (s.pc + 2)

/-- The one PC write of a skip (41_skips.md R86). -/
def skipIf (c : Bool) (s : State) : State := s.setPc (s.pc + if c then 4 else 2)

/-! ### Faults (60_exceptions.md) -/

/-- The code that FAULT holds for a cause (R156). -/
def causeCode : Cause → BitVec 3
  | .stackOverflow _ => 1
  | .stackUnderflow _ => 2
  | .memoryBounds _ => 3
  | .keyIndex _ => 4

/-- Fault entry (R151): FAULT is latched and nothing else changes. PC still addresses the faulting
instruction; the cause's `info` goes to no register (R156). There is no return from a fault: only reset
clears FAULT (R152). -/
def raise (c : Cause) (s : State) : State := s.setFault (causeCode c)

/-- All fault checks come before all effects (R157): if the check found a cause, raise it; else the
instruction's whole effect. Either way the instruction has a next state. -/
def guarded (check : Option Cause) (s effect : State) : Host.Outcome State Fault Refusal :=
  match check with
  | some c => .next (raise c s)
  | none => .next effect

/-- The check of an instruction that touches the `count` bytes from address `base` (20_memory.md R34 to R36,
R43): natural-number addresses, no wrap; the highest one must not be above 4095. -/
def boundsCheck (base count : Nat) : Option Cause :=
  if count = 0 then none
  else if base + (count - 1) > Config.memSize - 1 then some (.memoryBounds (base + (count - 1)))
  else none

/-! ### Fetch (20_memory.md R33) -/

/-- `Fetch(PC)`: the big-endian word at PC, or the neutral opcode 0x0000 when PC or PC + 1 is outside MEM. It
never faults. -/
def fetch (s : State) : Word :=
  if s.pc.toNat + 1 > Config.memSize - 1 then 0x0000
  else Memory.read s.mem s.pc.toNat ++ Memory.read s.mem (s.pc.toNat + 1)

/-- The state in which the next fetch reads `w`: the word is stored big-endian at PC. Where a fetch could not
read it (FAULT latched, or PC outside MEM) the fault is cleared and PC is the program base (log entry 12).
This is no operation of the machine: it stands for the load of a program. -/
def placeWord (s : State) (w : Word) : State :=
  let pc : Word := if s.pc.toNat + 1 > Config.memSize - 1 then 0x0200 else s.pc
  ((s.setFault 0).setPc pc).setMem (Memory.writeBytes s.mem pc.toNat (wordBytes w))

/-! ### The framebuffer (10_state.md R17) -/

/-- Every pixel 0. -/
def blankFb : Framebuffer := Vector.replicate 32 0

/-- `FB[px][py]`. -/
def pixel (fb : Framebuffer) (px : Fin 64) (py : Fin 32) : Bool := (fb[py]).getLsbD px

/-- `FB[px][py] <- FB[px][py] XOR 1`. -/
def togglePixel (fb : Framebuffer) (px : Fin 64) (py : Fin 32) : Framebuffer :=
  fb.set py (fb[py] ^^^ BitVec.twoPow 64 px)

/-! ### The call stack (10_state.md R14, R15; 40_control_flow.md R72, R74) -/

/-- Increment SP, then write the slot it names. -/
def push (w : Word) (s : State) : State := (s.setSp (s.sp + 1)).setSlot (s.sp + 1) w

/-- Decrement SP; the slot keeps its value. -/
def pop (s : State) : State := s.setSp (s.sp - 1)

end Sys2Proof.Machine
end

