-- ==== Sys2Proof/Machine/Operands.lean ====
section
/-! DEFINITION. The operand forms of spec/30_encoding.md R53 and the one addressing mode of
44_memory_index.md R123. -/

namespace Sys2Proof.Machine

/-- `V[x]`, the register operand named by a field (10_state.md R10). -/
def regOperand (s : State) (x : Reg) : Byte := s.v[x]

/-- `zext_16` of an immediate nnn. -/
def addrOperand (nnn : Imm12) : Word := nnn.setWidth 16

/-- `zext_16` of a V register. -/
def wideOperand (b : Byte) : Word := b.setWidth 16

/-- The base of the addressing mode `I + k`, a natural number that never wraps (20_memory.md R36). -/
def baseAddr (s : State) : Nat := s.i.toNat

/-- The decimal digits of a byte, hundreds first (44_memory_index.md R124). -/
def bcdDigits (a : Byte) : List Byte := [a / 100, a / 10 % 10, a % 10]

/-- The bytes of V0 to Vx, V0 first (44_memory_index.md R125). -/
def regBytes (v : Vector Byte 16) (x : Reg) : List Byte := v.toList.take (x.val + 1)

/-- V after V0 to Vx are loaded from MEM, V0 from `base` (44_memory_index.md R126). -/
def loadedRegs (v : Vector Byte 16) (m : Memory) (base : Nat) (x : Reg) : Vector Byte 16 :=
  Vector.ofFn fun k : Reg => if k ≤ x then Memory.read m (base + k.val) else v[k]

/-- I after the post-increment of Fx55 and Fx65, by the number of bytes moved (R125, R126). -/
def bumpedI (s : State) (x : Reg) : Word := BitVec.ofNat 16 (s.i.toNat + x.val + 1)

/-- The key that the value of a V register selects, or KeyIndex when it selects none (41_skips.md R84). -/
def keyCheck (a : Byte) : Option Cause := if a.toNat > 15 then some (.keyIndex a) else none

/-- `KEYS[a]`, for a key number that passed `keyCheck`. -/
def keyOperand (s : State) (a : Byte) : Bool := s.keys[a.toNat]?.getD false

/-- The least pressed key, if any is (46_timers_input.md R141). -/
def leastKey (s : State) : Option (Fin 16) := (List.finRange 16).find? fun k => s.keys[k]

end Sys2Proof.Machine
end

