-- ==== Sys2Proof/Machine/Flags.lean ====
section
/-! DEFINITION. Every value that an instruction leaves in VF (spec/10_state.md R11), computed from the operands
sampled before the operation, and the order of the two writes (43_alu.md R110). -/

namespace Sys2Proof.Machine

/-- A flag as the whole 8-bit register: 0x01 or 0x00 (R11). -/
def flagByte (c : Bool) : Byte := if c then 0x01 else 0x00

/-- Whether the 9-bit sum exceeds 255 (R105). -/
def carryFlag (a b : Byte) : Bool := decide (a.toNat + b.toNat > 255)

/-- Whether `a - b` needs no borrow (R106; R108 with the operands exchanged). -/
def noBorrowFlag (a b : Byte) : Bool := decide (a.toNat ≥ b.toNat)

/-- The bit that a shift right moves out (R107). -/
def lowBitFlag (a : Byte) : Bool := a.getLsbD 0

/-- The bit that a shift left moves out (R109). -/
def highBitFlag (a : Byte) : Bool := a.getLsbD 7

/-- Write the result to Vx, then the flag to VF: when x = F the flag is what remains (R110; for ADD, SUB, SUBN,
SHR and SHL the spec's decision D6, log entry 8). -/
def writeResultFlag (s : State) (x : Reg) (result : Byte) (flag : Bool) : State :=
  (s.setV x result).setV regF (flagByte flag)

end Sys2Proof.Machine
end

