-- ==== Sys2Proof/Machine/Alu.lean ====
section
/-! DEFINITION. The register-register ALU family (spec/43_alu.md): both operands are sampled first, the result
goes to Vx, the flag to VF last (R110). -/

namespace Sys2Proof.Machine

/-- 8xy0 LD Vx, Vy (R101): VF is written only as the destination. -/
def execLdReg (x y : Reg) (s : State) : Host.Outcome State Fault Refusal :=
  .next (advance (s.setV x (regOperand s y)))

/-- 8xy1 OR Vx, Vy (R102): VF is 0 afterwards. -/
def execOrReg (x y : Reg) (s : State) : Host.Outcome State Fault Refusal :=
  .next (advance (writeResultFlag s x (regOperand s x ||| regOperand s y) false))

/-- 8xy2 AND Vx, Vy (R103): VF is 0 afterwards. -/
def execAndReg (x y : Reg) (s : State) : Host.Outcome State Fault Refusal :=
  .next (advance (writeResultFlag s x (regOperand s x &&& regOperand s y) false))

/-- 8xy3 XOR Vx, Vy (R104): VF is 0 afterwards. -/
def execXorReg (x y : Reg) (s : State) : Host.Outcome State Fault Refusal :=
  .next (advance (writeResultFlag s x (regOperand s x ^^^ regOperand s y) false))

/-- 8xy4 ADD Vx, Vy (R105): VF is the carry out. -/
def execAddReg (x y : Reg) (s : State) : Host.Outcome State Fault Refusal :=
  .next (advance (writeResultFlag s x (regOperand s x + regOperand s y)
    (carryFlag (regOperand s x) (regOperand s y))))

/-- 8xy5 SUB Vx, Vy (R106): VF is 1 when there is no borrow. -/
def execSubReg (x y : Reg) (s : State) : Host.Outcome State Fault Refusal :=
  .next (advance (writeResultFlag s x (regOperand s x - regOperand s y)
    (noBorrowFlag (regOperand s x) (regOperand s y))))

/-- 8xy6 SHR Vx, Vy (R107): Vx in place; Vy has no effect. -/
def execShr (x _y : Reg) (s : State) : Host.Outcome State Fault Refusal :=
  .next (advance (writeResultFlag s x (regOperand s x >>> 1) (lowBitFlag (regOperand s x))))

/-- 8xy7 SUBN Vx, Vy (R108): the destination is still Vx. -/
def execSubnReg (x y : Reg) (s : State) : Host.Outcome State Fault Refusal :=
  .next (advance (writeResultFlag s x (regOperand s y - regOperand s x)
    (noBorrowFlag (regOperand s y) (regOperand s x))))

/-- 8xyE SHL Vx, Vy (R109): Vx in place; Vy has no effect. -/
def execShl (x _y : Reg) (s : State) : Host.Outcome State Fault Refusal :=
  .next (advance (writeResultFlag s x (regOperand s x <<< 1) (highBitFlag (regOperand s x))))

end Sys2Proof.Machine
end

