-- ==== Sys2Proof/Machine/Control.lean ====
section
/-! DEFINITION. The control-flow family (spec/40_control_flow.md) and the dispatcher's default
(30_encoding.md R58). -/

namespace Sys2Proof.Machine

/-- 00E0 CLS (R70): every pixel 0, DRAW set whatever was there. -/
def execCls (s : State) : Host.Outcome State Fault Refusal :=
  .next (advance ((s.setFb blankFb).setDraw true))

/-- 00EE RET (R72): PC is the popped slot itself; StackUnderflow at SP = 0 (R153, decision D1). -/
def execRet (s : State) : Host.Outcome State Fault Refusal :=
  guarded (if s.sp = 0 then some (.stackUnderflow s.pc) else none) s (pop (s.setPc s.stack[s.sp]))

/-- 0nnn SYS nnn (R71): no operation. -/
def execSys (_ : Imm12) (s : State) : Host.Outcome State Fault Refusal := .next (advance s)

/-- 1nnn JP nnn (R73): unconditional, unchecked, any parity. -/
def execJp (nnn : Imm12) (s : State) : Host.Outcome State Fault Refusal := .next (s.setPc (addrOperand nnn))

/-- 2nnn CALL nnn (R74): SP first, then the slot, then PC; StackOverflow at SP = 15 (R153, decision D1). -/
def execCall (nnn : Imm12) (s : State) : Host.Outcome State Fault Refusal :=
  guarded (if s.sp = 15 then some (.stackOverflow s.pc) else none) s
    ((push (s.pc + 2) s).setPc (addrOperand nnn))

/-- Bnnn JP V0, nnn (R75): always V0; the sum is not masked to 12 bits. -/
def execJpV0 (nnn : Imm12) (s : State) : Host.Outcome State Fault Refusal :=
  .next (s.setPc (addrOperand nnn + wideOperand (regOperand s 0)))

/-- Any word that rows 1 to 35 leave (R58): PC + 2 and nothing else. -/
def execUnmatched (_ : Word) (s : State) : Host.Outcome State Fault Refusal := .next (advance s)

end Sys2Proof.Machine
end

