-- ==== Sys2Proof/Machine/Display.lean ====
section
/-! DEFINITION. The sprite XOR and collision unit (spec/45_display.md). -/

namespace Sys2Proof.Machine

/-- The column that offset `c` of a sprite drawn at `x0` falls on: wrapped per pixel (R131). -/
def spriteColumn (x0 : Byte) (c : Nat) : Fin 64 := ⟨(x0.toNat + c) % 64, Nat.mod_lt _ (by decide)⟩

/-- The row that offset `r` of a sprite drawn at `y0` falls on: wrapped per row (R131). -/
def spriteRow (y0 : Byte) (r : Nat) : Fin 32 := ⟨(y0.toNat + r) % 32, Nat.mod_lt _ (by decide)⟩

/-- Whether the pixel at column offset `c` of a sprite byte is set: bit 7 is offset 0 (R130, decision D11; log
entry 6; mark PRESUMED). -/
def spriteBit (b : Byte) (c : Nat) : Bool := b.getLsbD (7 - c)

/-- One pixel of R131's inner loop, on the framebuffer and the collision seen so far. -/
def drawPixel (b x0 : Byte) (py : Fin 32) (acc : Framebuffer × Bool) (c : Nat) : Framebuffer × Bool :=
  if spriteBit b c then
    (togglePixel acc.1 (spriteColumn x0 c) py, acc.2 || pixel acc.1 (spriteColumn x0 c) py)
  else acc

/-- R131's inner loop: the 8 pixels of one row, left to right. -/
def drawRow (b x0 : Byte) (py : Fin 32) (acc : Framebuffer × Bool) : Framebuffer × Bool :=
  (List.range 8).foldl (drawPixel b x0 py) acc

/-- R131's outer loop: the rows from offset `r` on, top to bottom. -/
def drawRows (x0 y0 : Byte) : Nat → List Byte → Framebuffer × Bool → Framebuffer × Bool
  | _, [], acc => acc
  | r, b :: bs, acc => drawRows x0 y0 (r + 1) bs (drawRow b x0 (spriteRow y0 r) acc)

/-- The framebuffer and the collision after drawing a sprite: VF counts as reset first (R131). -/
def drawSprite (fb : Framebuffer) (x0 y0 : Byte) (sprite : List Byte) : Framebuffer × Bool :=
  drawRows x0 y0 0 sprite (fb, false)

/-- The sprite of Dxyn: the n bytes from address I (R130, R131). -/
def spriteBytes (s : State) (n : Fin 16) : List Byte := Memory.readBytes s.mem (baseAddr s) n.val

/-- Dxyn DRW Vx, Vy, n (R131): coordinates are sampled before VF is touched (decision D7, log entry 14); DRAW
is set on every execution that does not fault. -/
def execDrw (x y : Reg) (n : Fin 16) (s : State) : Host.Outcome State Fault Refusal :=
  guarded (boundsCheck (baseAddr s) n.val) s
    (advance
      (((s.setV regF
            (flagByte (drawSprite s.fb (regOperand s x) (regOperand s y) (spriteBytes s n)).2)).setFb
          (drawSprite s.fb (regOperand s x) (regOperand s y) (spriteBytes s n)).1).setDraw true))

end Sys2Proof.Machine
end

