-- ==== Sys2Proof/Machine/Immediate.lean ====
section
/-! DEFINITION. The immediate and single-register family (spec/42_immediate.md). -/

namespace Sys2Proof.Machine

/-- 6xkk LD Vx, kk (R90). -/
def execLdImm (x : Reg) (kk : Byte) (s : State) : Host.Outcome State Fault Refusal :=
  .next (advance (s.setV x kk))

/-- 7xkk ADD Vx, kk (R91): modulo 256, VF not written unless x = F names it. -/
def execAddImm (x : Reg) (kk : Byte) (s : State) : Host.Outcome State Fault Refusal :=
  .next (advance (s.setV x (regOperand s x + kk)))

/-- Cxkk RND Vx, kk (R92): the draw `rnd` is the next free value (decision D13; log entries 2 and 3). -/
def execRnd (x : Reg) (kk : Byte) (s : State) : Host.Outcome State Fault Refusal :=
  .next (advance ((s.setV x (Config.rnd s.draws &&& kk)).countDraw))

end Sys2Proof.Machine
end

