-- ==== Sys2Proof/Machine/Index.lean ====
section
/-! DEFINITION. The memory and index family (spec/44_memory_index.md): bounds of all addresses first
(20_memory.md R43), then the accesses, then I. -/

namespace Sys2Proof.Machine

/-- Annn LD I, nnn (R120). -/
def execLdI (nnn : Imm12) (s : State) : Host.Outcome State Fault Refusal :=
  .next (advance (s.setI (addrOperand nnn)))

/-- Fx1E ADD I, Vx (R121): modulo 65536, no flag. -/
def execAddI (x : Reg) (s : State) : Host.Outcome State Fault Refusal :=
  .next (advance (s.setI (s.i + wideOperand (regOperand s x))))

/-- Fx29 LD F, Vx (R122): Vx times 5, Vx not masked. -/
def execLdF (x : Reg) (s : State) : Host.Outcome State Fault Refusal :=
  .next (advance (s.setI (wideOperand (regOperand s x) * 5)))

/-- Fx33 LD B, Vx (R124): three decimal digits at I, I + 1, I + 2; I unchanged. -/
def execLdB (x : Reg) (s : State) : Host.Outcome State Fault Refusal :=
  guarded (boundsCheck (baseAddr s) 3) s
    (advance (s.setMem (Memory.writeBytes s.mem (baseAddr s) (bcdDigits (regOperand s x)))))

/-- Fx55 LD [I], Vx (R125): V0 to Vx from address I up, then I by x + 1. -/
def execStoreRegs (x : Reg) (s : State) : Host.Outcome State Fault Refusal :=
  guarded (boundsCheck (baseAddr s) (x.val + 1)) s
    (advance ((s.setMem (Memory.writeBytes s.mem (baseAddr s) (regBytes s.v x))).setI (bumpedI s x)))

/-- Fx65 LD Vx, [I] (R126): V0 to Vx from address I up, then I by x + 1. -/
def execLoadRegs (x : Reg) (s : State) : Host.Outcome State Fault Refusal :=
  guarded (boundsCheck (baseAddr s) (x.val + 1)) s
    (advance ((s.setRegs (loadedRegs s.v s.mem (baseAddr s) x)).setI (bumpedI s x)))

end Sys2Proof.Machine
end

