-- ==== Sys2Proof/Machine/Skips.lean ====
section
/-! DEFINITION. The conditional skips (spec/41_skips.md): one PC write each (R86). -/

namespace Sys2Proof.Machine

/-- 3xkk SE Vx, kk (R80). -/
def execSeImm (x : Reg) (kk : Byte) (s : State) : Host.Outcome State Fault Refusal :=
  .next (skipIf (regOperand s x == kk) s)

/-- 4xkk SNE Vx, kk (R81). -/
def execSneImm (x : Reg) (kk : Byte) (s : State) : Host.Outcome State Fault Refusal :=
  .next (skipIf (regOperand s x != kk) s)

/-- 5xy0 SE Vx, Vy (R82). -/
def execSeReg (x y : Reg) (s : State) : Host.Outcome State Fault Refusal :=
  .next (skipIf (regOperand s x == regOperand s y) s)

/-- 9xy0 SNE Vx, Vy (R83). -/
def execSneReg (x y : Reg) (s : State) : Host.Outcome State Fault Refusal :=
  .next (skipIf (regOperand s x != regOperand s y) s)

/-- Ex9E SKP Vx (R84): KeyIndex when Vx > 15 (R155, decision D4). -/
def execSkp (x : Reg) (s : State) : Host.Outcome State Fault Refusal :=
  guarded (keyCheck (regOperand s x)) s (skipIf (keyOperand s (regOperand s x)) s)

/-- ExA1 SKNP Vx (R85): KeyIndex when Vx > 15 (R155, decision D4). -/
def execSknp (x : Reg) (s : State) : Host.Outcome State Fault Refusal :=
  guarded (keyCheck (regOperand s x)) s (skipIf (!keyOperand s (regOperand s x)) s)

end Sys2Proof.Machine
end

