-- ==== Sys2Proof/Machine/TimersInput.lean ====
section
/-! DEFINITION. The timer and input family (spec/46_timers_input.md). The countdown itself is a host operation
(Machine/HostOps.lean). -/

namespace Sys2Proof.Machine

/-- Fx07 LD Vx, DT (R140). -/
def execLdVxDt (x : Reg) (s : State) : Host.Outcome State Fault Refusal := .next (advance (s.setV x s.dt))

/-- Fx0A LD Vx, K (R141): the least pressed key; with none pressed no state changes and the same instruction
runs again at the next step. -/
def execLdVxK (x : Reg) (s : State) : Host.Outcome State Fault Refusal :=
  match leastKey s with
  | some k => .next (advance (s.setV x (BitVec.ofNat 8 k.val)))
  | none => .next s

/-- Fx15 LD DT, Vx (R142). -/
def execLdDtVx (x : Reg) (s : State) : Host.Outcome State Fault Refusal :=
  .next (advance (s.setDt (regOperand s x)))

/-- Fx18 LD ST, Vx (R143). -/
def execLdStVx (x : Reg) (s : State) : Host.Outcome State Fault Refusal :=
  .next (advance (s.setSt (regOperand s x)))

end Sys2Proof.Machine
end

