-- ==== Sys2Proof/Machine/Cycle.lean ====
section
/-! DEFINITION. The fetch-decode-execute cycle and its report (spec/30_encoding.md R60; 60_exceptions.md
R152, R163). -/

namespace Sys2Proof.Machine

/-- Fetch, decode and execute, up to the point where `step` copies DRAW to its output: what R60 does when
FAULT is 0. -/
def fetchExecute (s : State) : Host.Outcome State Fault Refusal := exec (decodeWord (fetch s)) s

/-- The last line of R60: DRAW is cleared once it has been copied (90_conflicts.md C6). -/
def clearDraw : Host.Outcome State Fault Refusal → Host.Outcome State Fault Refusal
  | .next t => .next (t.setDraw false)
  | .fault r => .fault r
  | .refused r => .refused r

/-- One step (R60): while a fault is latched nothing is fetched and nothing changes (R152). -/
def cycle (s : State) : Host.Outcome State Fault Refusal :=
  if s.fault ≠ 0 then .next s else clearDraw (fetchExecute s)

/-- What `step` returns to the host (R60): the view of the framebuffer (R163), `changed`, and `fault`. -/
structure StepReport where
  view : Framebuffer
  changed : Bool
  fault : BitVec 3
deriving DecidableEq, Repr

/-- The report of the step taken from `s` (R60). It is an output of the step, not state (log entry 11). -/
def stepReport (s : State) : StepReport :=
  if s.fault ≠ 0 then { view := s.fb, changed := false, fault := s.fault }
  else
    match fetchExecute s with
    | .next t => { view := t.fb, changed := t.draw, fault := t.fault }
    | .fault _ | .refused _ => { view := s.fb, changed := false, fault := s.fault }

end Sys2Proof.Machine
end

