-- ==== Sys2Proof/Machine/Step.lean ====
section
/-! DEFINITION. The step of the host interface (spec/30_encoding.md R60) and the placing of one instruction
for it to run. -/

namespace Sys2Proof.Machine

/-- One `step` of the core. -/
def step (s : State) : Host.Outcome State Fault Refusal := cycle s

/-- `s` with one instruction, given in the opcode table's bit numbering, where the next step fetches it; it
stands for the load of a program (70_reset_and_hazards.md R172; log entries 10 and 12). -/
def State.withFetchWord (s : State) (nbits w : Nat) : State := placeWord s (tableWord nbits w)

end Sys2Proof.Machine
end

