-- ==== Sys2Proof/Machine/HostOps.lean ====
section
/-! DEFINITION. The host's other operations (spec/60_exceptions.md R160, R161, R164;
70_reset_and_hazards.md R170, R172) and the runs that the boot protocol allows (R174). -/

namespace Sys2Proof.Machine

/-- Reset (70_reset_and_hazards.md R170) with its one argument, the parameter `FONT` (R6): the table of R23 with
those 80 bytes in MEM[0x000..0x04F]. `State.reset` is this for the default `FONT` (log entry 1). -/
def State.resetWith (font : Font) : State :=
  State.reset.setMem (Memory.writeBytes State.reset.mem Config.fontBase font.toList)

/-- One less, never below 0 (R160). -/
def countDown (b : Byte) : Byte := if b = 0 then 0 else b - 1

/-- `tick_timers()` (R160): the two counters, each on its own; it acts whether or not a fault is latched
(R152). -/
def tickTimers (s : State) : State := (s.setDt (countDown s.dt)).setSt (countDown s.st)

/-- `set_key(index, pressed)` (R161): the index port has 4 bits (decision D15, log entry 17). -/
def setKey (index : Fin 16) (pressed : Bool) (s : State) : State := s.setKeyAt index pressed

/-- What `load_program` answers (R172). -/
inductive LoadResult where
  /-- The image is in MEM. -/
  | ok (s : State)
  /-- The image is longer than 3584 bytes: nothing changed, execution never starts (R173). -/
  | invalidSize
deriving DecidableEq, Repr

/-- `load_program(bytes)` (R172): it writes MEM[0x200..0x200+len) and nothing else. -/
def loadProgram (bytes : List Byte) (s : State) : LoadResult :=
  if bytes.length > Config.progMax then .invalidSize
  else .ok (s.setMem (Memory.writeBytes s.mem Config.progBase bytes))

/-- The operations that the host may issue in any order once a program is loaded (R164, R174). -/
inductive HostOp where
  | step
  | tickTimers
  | setKey (index : Fin 16) (pressed : Bool)
deriving DecidableEq, Repr

/-- One host operation, atomic (R164). -/
def hostOp (op : HostOp) (s : State) : Host.Outcome State Fault Refusal :=
  match op with
  | .step => step s
  | .tickTimers => .next (tickTimers s)
  | .setKey index pressed => .next (setKey index pressed s)

/-- A sequence of host operations; every interleaving is allowed (R160, decision D26). -/
def runOps : List HostOp → State → Host.Outcome State Fault Refusal
  | [], s => .next s
  | op :: ops, s =>
    match hostOp op s with
    | .next t => runOps ops t
    | .fault r => .fault r
    | .refused r => .refused r

/-- Whether an operation may come before the load: ticks and key changes may, a step may not (R174). -/
def HostOp.mayPrecedeLoad : HostOp → Bool
  | .step => false
  | .tickTimers | .setKey _ _ => true

/-- A run of the boot protocol (R174): reset with some FONT, perhaps ticks and key changes, one successful load, then any
host operations. `none` is a run that the spec gives no meaning to (decision D16, log entry 10). -/
def protocolRun (font : Font) (early : List HostOp) (rom : List Byte) (ops : List HostOp) :
    Option (Host.Outcome State Fault Refusal) :=
  if early.all HostOp.mayPrecedeLoad then
    match runOps early (State.resetWith font) with
    | .next s =>
      match loadProgram rom s with
      | .ok t => some (runOps ops t)
      | .invalidSize => none
    | .fault r => some (.fault r)
    | .refused r => some (.refused r)
  else none

end Sys2Proof.Machine
end

