-- ==== Sys2Proof/Safety.lean ====
section
/-! DEFINITION. The terms that claims use: what counts as a safe state, the end of a run, the invariant of the
machine, and what an instruction leaves unchanged. -/

namespace Sys2Proof.Machine

/-- No fault is latched; a state with FAULT nonzero is never a successful end (spec/60_exceptions.md R152). -/
abbrev State.running (s : State) : Prop := s.fault = 0

/-- The spec's convention for the end of a program: the next instruction is a jump to itself
(70_reset_and_hazards.md R178, decision D22). -/
def State.atEnd (s : State) : Prop := s.running ∧ ∃ nnn, decodeWord (fetch s) = .jp nnn ∧ addrOperand nnn = s.pc

/-- The parts of the state, to say which of them an instruction may change. -/
structure Parts where
  v : Bool := false
  i : Bool := false
  pc : Bool := false
  sp : Bool := false
  stack : Bool := false
  dt : Bool := false
  st : Bool := false
  mem : Bool := false
  fb : Bool := false
  draw : Bool := false
  keys : Bool := false
  fault : Bool := false
  draws : Bool := false
deriving DecidableEq, Repr

/-- Every part of the state that `p` does not name is the same in `t` as in `s`; of memory, every byte reads
the same. -/
def unchangedBut (p : Parts) (s t : State) : Prop :=
  (p.v = false → t.v = s.v) ∧ (p.i = false → t.i = s.i) ∧ (p.pc = false → t.pc = s.pc) ∧
  (p.sp = false → t.sp = s.sp) ∧ (p.stack = false → t.stack = s.stack) ∧
  (p.dt = false → t.dt = s.dt) ∧ (p.st = false → t.st = s.st) ∧
  (p.mem = false → ∀ a, Memory.read t.mem a = Memory.read s.mem a) ∧
  (p.fb = false → ∀ px py, pixel t.fb px py = pixel s.fb px py) ∧
  (p.draw = false → t.draw = s.draw) ∧ (p.keys = false → t.keys = s.keys) ∧
  (p.fault = false → t.fault = s.fault) ∧ (p.draws = false → t.draws = s.draws)

/-- The invariant of the machine: MEM is in its canonical form (20_memory.md R30), FAULT holds a code that
exists (10_state.md R21), STACK[0] is as reset left it (R15), every slot holds a return address that a CALL can
push (40_control_flow.md R74: at most 0x1000), and DRAW is 0 between host operations (10_state.md R18). -/
def State.inv (s : State) : Prop :=
  Memory.wf s.mem ∧ s.fault.toNat ≤ 4 ∧ s.stack[0] = 0 ∧ (∀ k : Fin 16, s.stack[k].toNat ≤ 0x1000) ∧
  s.draw = false

end Sys2Proof.Machine
end

