-- ==== Sys2Proof/Certificates/Slice0/Obligations.lean ====
section
/-! DEFINITION. The statements for the provers, each from the numbered rules of spec/. `unchangedBut p s t` says
that every part of the state that `p` does not name is the same in `t` as in `s` (Safety.lean). -/

open Sys2Proof Sys2Proof.Machine

/-! ### Encoding and decoding (spec/30_encoding.md) -/

/-- R51, R52, R54 to R56: every well-formed instruction is read back from its bytes with every operand, and the
bytes after it are left over. Rests on the 8xy_ numbering of R57 (log entry 5). -/
def Obligations.DecodeOfEncode : Prop :=
  ∀ (i : Instr) (rest : List Byte), i.wf = true → decode (encodeBytes i ++ rest) = .ok (i, rest)

/-- R54: decoding is total; every word selects one well-formed instruction, whose word it is. -/
def Obligations.EncodeOfDecode : Prop :=
  ∀ w : Word, (decodeWord w).wf = true ∧ encode (decodeWord w) = w

/-- R56: two different rows match one word only for 0x00E0 and 0x00EE, which match row 3 as well as row 1 or 2. -/
def Obligations.RowsOverlapOnlyAtClsAndRet : Prop :=
  ∀ (w : Word) (j k : Nat) (r q : Row), j < k → dispatchTable[j]? = some r → dispatchTable[k]? = some q →
    rowMatches w r = true → rowMatches w q = true →
    k = 2 ∧ ((j = 0 ∧ w = 0x00E0) ∨ (j = 1 ∧ w = 0x00EE))

/-- R58: the words that no row 1 to 35 selects are exactly those of the rule's table, and each of them adds 2 to
PC and does nothing else. Rests on R57's numbering (log entry 5) and on decision D23 (log entry 15). -/
def Obligations.UnmatchedWordsAreNoOps : Prop :=
  (∀ w : Word, decodeWord w = .unmatched w ↔ isUnmatched w = true) ∧
  ∀ (w : Word) (s : State), exec (.unmatched w) s = .next { s with pc := s.pc + 2 }

/-- R51, R52, R55: the word of every instruction as a number, from its format and its row. Rows 11 to 19 rest on
R57's numbering (log entry 5). -/
def Obligations.EncodingsAsNumbers : Prop :=
  ∀ (x y : Reg) (n : Fin 16) (kk : Byte) (nnn : Imm12),
    ((encode .cls).toNat = 0x00E0 ∧ (encode .ret).toNat = 0x00EE ∧ (encode (.sys nnn)).toNat = nnn.toNat ∧
      (encode (.jp nnn)).toNat = 0x1000 + nnn.toNat ∧ (encode (.call nnn)).toNat = 0x2000 + nnn.toNat ∧
      (encode (.ldI nnn)).toNat = 0xA000 + nnn.toNat ∧ (encode (.jpV0 nnn)).toNat = 0xB000 + nnn.toNat) ∧
    ((encode (.seImm x kk)).toNat = 0x3000 + 256 * x.val + kk.toNat ∧
      (encode (.sneImm x kk)).toNat = 0x4000 + 256 * x.val + kk.toNat ∧
      (encode (.ldImm x kk)).toNat = 0x6000 + 256 * x.val + kk.toNat ∧
      (encode (.addImm x kk)).toNat = 0x7000 + 256 * x.val + kk.toNat ∧
      (encode (.rnd x kk)).toNat = 0xC000 + 256 * x.val + kk.toNat) ∧
    ((encode (.seReg x y)).toNat = 0x5000 + 256 * x.val + 16 * y.val ∧
      (encode (.sneReg x y)).toNat = 0x9000 + 256 * x.val + 16 * y.val ∧
      (encode (.drw x y n)).toNat = 0xD000 + 256 * x.val + 16 * y.val + n.val) ∧
    ((encode (.ldReg x y)).toNat = 0x8000 + 256 * x.val + 16 * y.val ∧
      (encode (.orReg x y)).toNat = 0x8001 + 256 * x.val + 16 * y.val ∧
      (encode (.andReg x y)).toNat = 0x8002 + 256 * x.val + 16 * y.val ∧
      (encode (.xorReg x y)).toNat = 0x8003 + 256 * x.val + 16 * y.val ∧
      (encode (.addReg x y)).toNat = 0x8004 + 256 * x.val + 16 * y.val ∧
      (encode (.subReg x y)).toNat = 0x8005 + 256 * x.val + 16 * y.val ∧
      (encode (.shr x y)).toNat = 0x8006 + 256 * x.val + 16 * y.val ∧
      (encode (.subnReg x y)).toNat = 0x8007 + 256 * x.val + 16 * y.val ∧
      (encode (.shl x y)).toNat = 0x800E + 256 * x.val + 16 * y.val) ∧
    ((encode (.skp x)).toNat = 0xE09E + 256 * x.val ∧ (encode (.sknp x)).toNat = 0xE0A1 + 256 * x.val ∧
      (encode (.ldVxDt x)).toNat = 0xF007 + 256 * x.val ∧ (encode (.ldVxK x)).toNat = 0xF00A + 256 * x.val ∧
      (encode (.ldDtVx x)).toNat = 0xF015 + 256 * x.val ∧ (encode (.ldStVx x)).toNat = 0xF018 + 256 * x.val ∧
      (encode (.addI x)).toNat = 0xF01E + 256 * x.val ∧ (encode (.ldF x)).toNat = 0xF029 + 256 * x.val ∧
      (encode (.ldB x)).toNat = 0xF033 + 256 * x.val ∧ (encode (.storeRegs x)).toNat = 0xF055 + 256 * x.val ∧
      (encode (.loadRegs x)).toNat = 0xF065 + 256 * x.val)

/-- 95_test_vectors.md 2.1 and E6 (the word 6A12): some words and what they select. 812E and its operation rest on
the 8xy_ numbering of R57 (decision D10, log entry 5; mark PRESUMED); the other seven do not. -/
def Obligations.SampleWordsDecode : Prop :=
  decodeWord 0x00E0 = .cls ∧ decodeWord 0x00EF = .sys 0x0EF ∧ decodeWord 0x6A12 = .ldImm 0xA 0x12 ∧
  decodeWord 0x812E = .shl 1 2 ∧ decodeWord 0xD12F = .drw 1 2 15 ∧ decodeWord 0xEF9E = .skp 15 ∧
  decodeWord 0xF065 = .loadRegs 0 ∧ decodeWord 0xF075 = .unmatched 0xF075

/-! ### The step (30_encoding.md R60) and fetch (20_memory.md R33) -/

/-- R60: with no fault latched, a step is `exec` of the instruction that the bytes at PC decode to, after which
DRAW is cleared. -/
def Obligations.StepRunsDecodedInstruction : Prop :=
  ∀ (s : State) (i : Instr), s.fault = 0 → s.pc.toNat + 1 ≤ 4095 →
    decode [Memory.read s.mem s.pc.toNat, Memory.read s.mem (s.pc.toNat + 1)] = .ok (i, []) →
    step s = match exec i s with
      | .next t => .next { t with draw := false }
      | .fault r => .fault r
      | .refused r => .refused r

/-- R33: the fetched word is the big-endian pair at PC when both bytes are in MEM; otherwise it is the neutral
opcode 0x0000, which is 0nnn and only advances PC. -/
def Obligations.FetchIsBigEndianAndGuarded : Prop :=
  ∀ s : State,
    (s.pc.toNat + 1 ≤ 4095 →
      (fetch s).toNat = 256 * (Memory.read s.mem s.pc.toNat).toNat + (Memory.read s.mem (s.pc.toNat + 1)).toNat) ∧
    (s.pc.toNat + 1 > 4095 → fetch s = 0x0000 ∧ decodeWord (fetch s) = .sys 0 ∧
      fetchExecute s = .next { s with pc := s.pc + 2 })

/-- R33, R71, R13: past the end of MEM a step only advances PC by 2, wrapping at 2^16 (decision D5, log entry
13). -/
def Obligations.StepPastMemoryOnlyAdvances : Prop :=
  ∀ s : State, s.fault = 0 → s.draw = false → s.pc.toNat ≥ 0x0FFF →
    step s = .next { s with pc := BitVec.ofNat 16 ((s.pc.toNat + 2) % 65536) }

/-- 60_exceptions.md R152: while a fault is latched a step changes nothing and reports no change and the fault
(decision D12, log entry 4). -/
def Obligations.FaultedStepChangesNothing : Prop :=
  ∀ s : State, s.fault ≠ 0 →
    step s = .next s ∧ stepReport s = { view := s.fb, changed := false, fault := s.fault }

/-- R60, R18, R163: the view and the fault that a step reports are those after it, and `changed` is 1 exactly when
it executed CLS or DRW without a fault. The premise is the invariant that DRAW is 0 between operations. -/
def Obligations.StepReportsChange : Prop :=
  ∀ s : State, s.draw = false → ∃ t, step s = .next t ∧ (stepReport s).view = t.fb ∧
    (stepReport s).fault = t.fault ∧ t.draw = false ∧
    ((stepReport s).changed = true ↔ s.fault = 0 ∧ t.fault = 0 ∧
      (decodeWord (fetch s) = .cls ∨ ∃ x y n, decodeWord (fetch s) = .drw x y n))

/-- 93_implementation_defined.md Part 1: every state has a step, and every instruction has a next state in every
state. -/
def Obligations.EveryStateHasAStep : Prop :=
  (∀ s : State, ∃ t, step s = .next t) ∧ ∀ (i : Instr) (s : State), ∃ t, exec i s = .next t

/-- log entry 12: the placed instruction of the opcode table is the one that the next step runs. -/
def Obligations.PlacedWordRunsNext : Prop :=
  ∀ (s : State) (nbits w : Nat) (i : Instr), Memory.wf s.mem → decodeTableWord nbits w = some i →
    step (s.withFetchWord nbits w) = clearDraw (exec i (s.withFetchWord nbits w))

/-! ### Faults (60_exceptions.md) -/

/-- R151: a step that latches a fault changes nothing but FAULT and reports no change and the fault (decision D27,
log entry 4). -/
def Obligations.FaultsArePrecise : Prop :=
  ∀ s t : State, s.fault = 0 → s.draw = false → step s = .next t → t.fault ≠ 0 →
    t = { s with fault := t.fault } ∧ stepReport s = { view := s.fb, changed := false, fault := t.fault }

/-- R156: the complete list of faults, each with its instructions and its condition (decisions D1 to D4, D24, log
entry 4). -/
def Obligations.FaultCausesAreComplete : Prop :=
  ∀ s : State, s.fault = 0 → ∃ t, step s = .next t ∧ t.fault.toNat ≤ 4 ∧
    (t.fault = 1 ↔ s.sp = 15 ∧ ∃ nnn, decodeWord (fetch s) = .call nnn) ∧
    (t.fault = 2 ↔ s.sp = 0 ∧ decodeWord (fetch s) = .ret) ∧
    (t.fault = 3 ↔
      (∃ x y n, decodeWord (fetch s) = .drw x y n ∧ n.val ≥ 1 ∧ s.i.toNat + (n.val - 1) > 4095) ∨
      (∃ x, decodeWord (fetch s) = .ldB x ∧ s.i.toNat + 2 > 4095) ∨
      (∃ x, (decodeWord (fetch s) = .storeRegs x ∨ decodeWord (fetch s) = .loadRegs x) ∧
        s.i.toNat + x.val > 4095)) ∧
    (t.fault = 4 ↔ ∃ x, (decodeWord (fetch s) = .skp x ∨ decodeWord (fetch s) = .sknp x) ∧ s.v[x].toNat > 15)

/-- R152: whatever the host does, short of a reset, a latched fault stays and only DT, ST and KEYS change. -/
def Obligations.FaultIsSticky : Prop :=
  ∀ (ops : List HostOp) (s t : State), s.fault ≠ 0 → runOps ops s = .next t →
    unchangedBut { dt := true, st := true, keys := true } s t

/-! ### Invariants and reset -/

/-- The invariant (Safety.lean, from 20_memory.md R30, 10_state.md R15, R18, R21 and 40_control_flow.md R74) is
kept by every step, from every state that has it. -/
def Obligations.StepKeepsInvariant : Prop :=
  ∀ s t : State, s.inv → step s = .next t → t.inv

/-- The state after reset meets the invariant, whatever the parameter FONT is. -/
def Obligations.ResetMeetsInvariant : Prop := State.reset.inv ∧ ∀ font : Font, (State.resetWith font).inv

/-- The host's other operations keep the invariant. -/
def Obligations.HostOperationsKeepInvariant : Prop :=
  ∀ s : State, s.inv → (tickTimers s).inv ∧ (∀ k b, (setKey k b s).inv) ∧
    ∀ bytes t, loadProgram bytes s = .ok t → t.inv

/-- 70_reset_and_hazards.md R174: a run of the boot protocol never stops, and its end meets the invariant. -/
def Obligations.ProtocolRunsComplete : Prop :=
  ∀ (font : Font) (early : List HostOp) (rom : List Byte) (ops : List HostOp),
    early.all HostOp.mayPrecedeLoad = true → rom.length ≤ 3584 →
    ∃ t, protocolRun font early rom ops = some (.next t) ∧ t.inv

/-- 70_reset_and_hazards.md R170: reset sets every piece of state, MEM below 0x050 to its argument, the parameter
FONT. `State.reset` is the reset for the default FONT, whose bytes are the model's (log entry 1); nothing here rests
on them. -/
def Obligations.ResetSetsEveryPiece : Prop :=
  State.reset = State.resetWith defaultFont ∧ ∀ (font : Font) (t : State), t = State.resetWith font →
    (∀ r : Reg, t.v[r] = 0x00) ∧ t.i = 0x0000 ∧ t.pc = 0x0200 ∧ t.sp = 0 ∧
    (∀ k : Fin 16, t.stack[k] = 0x0000) ∧ t.dt = 0 ∧ t.st = 0 ∧
    (∀ a : Fin 80, Memory.read t.mem a = font[a]) ∧ (∀ a : Nat, 0x050 ≤ a → Memory.read t.mem a = 0x00) ∧
    (∀ px py, pixel t.fb px py = false) ∧ t.draw = false ∧ (∀ k : Fin 16, t.keys[k] = false) ∧ t.fault = 0

/-- R172, R173: a load of at most 3584 bytes writes MEM from 0x200 and nothing else; a longer one answers
InvalidSize. -/
def Obligations.LoadWritesProgramArea : Prop :=
  ∀ (bytes : List Byte) (s : State), Memory.wf s.mem →
    (bytes.length > 3584 → loadProgram bytes s = .invalidSize) ∧
    (bytes.length ≤ 3584 → ∃ t, loadProgram bytes s = .ok t ∧ unchangedBut { mem := true } s t ∧
      (∀ k, k < bytes.length → Memory.read t.mem (0x200 + k) = bytes.getD k 0) ∧
      ∀ a, a < 0x200 ∨ 0x200 + bytes.length ≤ a → Memory.read t.mem a = Memory.read s.mem a)

/-- R171: PC is 0x200 after construction and after any load, and the first word fetched is the first two bytes of
the program, zero where it is shorter, whatever FONT is. -/
def Obligations.FirstFetchReadsProgramStart : Prop :=
  ∀ font : Font, (State.resetWith font).pc = 0x200 ∧ ∀ rom : List Byte, rom.length ≤ 3584 →
    ∃ t, loadProgram rom (State.resetWith font) = .ok t ∧ t.pc = 0x200 ∧
      (fetch t).toNat = 256 * (rom.getD 0 0).toNat + (rom.getD 1 0).toNat

/-! ### The host's operations -/

/-- 60_exceptions.md R160: a tick takes one from DT and from ST, each floored at 0, and does nothing else. -/
def Obligations.TickCountsDown : Prop :=
  ∀ s : State, (tickTimers s).dt.toNat = s.dt.toNat - 1 ∧ (tickTimers s).st.toNat = s.st.toNat - 1 ∧
    unchangedBut { dt := true, st := true } s (tickTimers s)

/-- R161: `set_key` sets one entry of the latch and nothing else. -/
def Obligations.SetKeySetsOneEntry : Prop :=
  ∀ (k : Fin 16) (b : Bool) (s : State), (setKey k b s).keys[k] = b ∧
    (∀ j : Fin 16, j ≠ k → (setKey k b s).keys[j] = s.keys[j]) ∧ unchangedBut { keys := true } s (setKey k b s)

/-! ### Rules about the whole machine -/

/-- 10_state.md R10 to R12, R14 to R21, 60_exceptions.md R156: which instructions can change each V register, I,
SP, the stack, DT, ST, MEM, FB, DRAW, KEYS and FAULT. PC, which almost every instruction changes, is the subject of
`Obligations.PcAdvancesByTwoExcept`. The clause on `draws` is about the model's own counter (log entry 3). -/
def Obligations.OnlyOwnersWrite : Prop :=
  ∀ (i : Instr) (s t : State), exec i s = .next t →
    t.keys = s.keys ∧
    (t.dt ≠ s.dt → ∃ x, i = .ldDtVx x) ∧ (t.st ≠ s.st → ∃ x, i = .ldStVx x) ∧
    (t.stack ≠ s.stack → ∃ nnn, i = .call nnn) ∧ (t.sp ≠ s.sp → i = .ret ∨ ∃ nnn, i = .call nnn) ∧
    (t.i ≠ s.i → (∃ nnn, i = .ldI nnn) ∨ ∃ x, i = .addI x ∨ i = .ldF x ∨ i = .storeRegs x ∨ i = .loadRegs x) ∧
    (t.mem ≠ s.mem → ∃ x, i = .ldB x ∨ i = .storeRegs x) ∧
    (t.fb ≠ s.fb ∨ t.draw ≠ s.draw → i = .cls ∨ ∃ x y n, i = .drw x y n) ∧
    (t.draws ≠ s.draws → ∃ x kk, i = .rnd x kk) ∧
    (t.fault ≠ s.fault → i = .ret ∨ (∃ nnn, i = .call nnn) ∨ (∃ x y n, i = .drw x y n) ∨
      ∃ x, i = .ldB x ∨ i = .storeRegs x ∨ i = .loadRegs x ∨ i = .skp x ∨ i = .sknp x) ∧
    ∀ r : Reg, t.v[r] ≠ s.v[r] →
      (∃ kk, i = .ldImm r kk ∨ i = .addImm r kk ∨ i = .rnd r kk) ∨
      (∃ y, i = .ldReg r y ∨ i = .orReg r y ∨ i = .andReg r y ∨ i = .xorReg r y ∨ i = .addReg r y ∨
        i = .subReg r y ∨ i = .shr r y ∨ i = .subnReg r y ∨ i = .shl r y) ∨
      i = .ldVxDt r ∨ i = .ldVxK r ∨ (∃ x, r ≤ x ∧ i = .loadRegs x) ∨
      (r = regF ∧ ∃ x y, i = .orReg x y ∨ i = .andReg x y ∨ i = .xorReg x y ∨ i = .addReg x y ∨ i = .subReg x y ∨
        i = .shr x y ∨ i = .subnReg x y ∨ i = .shl x y ∨ ∃ n, i = .drw x y n)

/-- 10_state.md R11: VF changes only as the flag of a flag-producing instruction, or as the destination that x = F
names. -/
def Obligations.VfHasOnlyTheseWriters : Prop :=
  ∀ (i : Instr) (s t : State), exec i s = .next t → t.v[regF] ≠ s.v[regF] →
    (∃ x y, i = .orReg x y ∨ i = .andReg x y ∨ i = .xorReg x y ∨ i = .addReg x y ∨ i = .subReg x y ∨
      i = .shr x y ∨ i = .subnReg x y ∨ i = .shl x y ∨ (∃ n, i = .drw x y n)) ∨
    (∃ y, i = .ldReg regF y) ∨ (∃ kk, i = .ldImm regF kk ∨ i = .addImm regF kk ∨ i = .rnd regF kk) ∨
    i = .ldVxDt regF ∨ i = .ldVxK regF ∨ i = .loadRegs regF

/-- 30_encoding.md R61: the complete list of instructions that do not end with PC + 2, and where each ends. -/
def Obligations.PcAdvancesByTwoExcept : Prop :=
  ∀ (i : Instr) (s t : State), exec i s = .next t → t.pc ≠ s.pc + 2 →
    (∃ nnn, i = .jp nnn ∧ t.pc.toNat = nnn.toNat) ∨
    (∃ nnn, i = .call nnn ∧ t.pc.toNat = nnn.toNat) ∨
    (∃ nnn, i = .jpV0 nnn ∧ t.pc.toNat = nnn.toNat + s.v[(0 : Reg)].toNat) ∨
    (i = .ret ∧ t.pc = s.stack[s.sp]) ∨
    (t.pc = s.pc + 4 ∧ ∃ x, (∃ kk, i = .seImm x kk ∨ i = .sneImm x kk) ∨ (∃ y, i = .seReg x y ∨ i = .sneReg x y) ∨
      i = .skp x ∨ i = .sknp x) ∨
    (t = s ∧ (∃ x, i = .ldVxK x) ∧ ∀ k : Fin 16, s.keys[k] = false) ∨
    (t.fault ≠ 0 ∧ t = { s with fault := t.fault })

/-- 42_immediate.md R92: an instruction other than Cxkk ignores the draw: with any other draws to come it does the
same. -/
def Obligations.OnlyRndReadsTheDraw : Prop :=
  ∀ (i : Instr) (s t : State) (d : Nat), (∀ x kk, i ≠ .rnd x kk) → exec i s = .next t →
    exec i { s with draws := d } = .next { t with draws := d }

/-- 20_memory.md R30: memories in canonical form that read the same at every address are the same. -/
def Obligations.CanonicalMemoriesAreEqual : Prop :=
  ∀ m m' : Memory, Memory.wf m → Memory.wf m' → (∀ a, Memory.read m a = Memory.read m' a) → m = m'

/-- 70_reset_and_hazards.md R178: a jump to itself is the stable end of a program (decision D22). -/
def Obligations.JumpToSelfIsStable : Prop :=
  ∀ s : State, s.atEnd → s.draw = false → step s = .next s

/-! ### Control flow (40_control_flow.md) -/

/-- R70: CLS clears every pixel and sets DRAW whatever was there. -/
def Obligations.ClsClearsScreen : Prop :=
  ∀ s : State, ∃ t, exec .cls s = .next t ∧ (∀ px py, pixel t.fb px py = false) ∧ t.draw = true ∧
    t.pc = s.pc + 2 ∧ unchangedBut { fb := true, draw := true, pc := true } s t

/-- R71: SYS only advances PC. -/
def Obligations.SysOnlyAdvances : Prop :=
  ∀ (nnn : Imm12) (s : State), exec (.sys nnn) s = .next { s with pc := s.pc + 2 }

/-- R72: RET takes the top slot into PC, and faults when the stack is empty (decision D1, log
entry 4). -/
def Obligations.RetPopsOrUnderflows : Prop :=
  ∀ s : State, (s.sp = 0 → exec .ret s = .next { s with fault := 2 }) ∧
    (s.sp ≠ 0 → ∃ t, exec .ret s = .next t ∧ t.pc = s.stack[s.sp] ∧ t.sp.val = s.sp.val - 1 ∧
      unchangedBut { pc := true, sp := true } s t)

/-- R74: CALL increments SP, stores PC + 2 in the slot it then names, and jumps; it faults when SP = 15
(decision D1, log entry 4). -/
def Obligations.CallPushesOrOverflows : Prop :=
  ∀ (nnn : Imm12) (s : State), (s.sp = 15 → exec (.call nnn) s = .next { s with fault := 1 }) ∧
    (s.sp ≠ 15 → ∃ t, exec (.call nnn) s = .next t ∧ t.sp.val = s.sp.val + 1 ∧ t.stack[t.sp] = s.pc + 2 ∧
      (∀ k : Fin 16, k ≠ t.sp → t.stack[k] = s.stack[k]) ∧ t.pc.toNat = nnn.toNat ∧
      unchangedBut { pc := true, sp := true, stack := true } s t)

/-- R73, R75: the jumps set PC to nnn, and to nnn + V0 with no mask, and change nothing else. -/
def Obligations.JumpsSetPc : Prop :=
  ∀ (nnn : Imm12) (s : State),
    (∃ t, exec (.jp nnn) s = .next t ∧ t.pc.toNat = nnn.toNat ∧ unchangedBut { pc := true } s t) ∧
    ∃ t, exec (.jpV0 nnn) s = .next t ∧ t.pc.toNat = nnn.toNat + s.v[(0 : Reg)].toNat ∧
      unchangedBut { pc := true } s t

/-- R72, R74: a CALL and then a RET come back to the instruction after the CALL with SP as before; of the stack only
the slot above SP, which the CALL wrote, can have changed. -/
def Obligations.CallThenRetReturns : Prop :=
  ∀ (nnn : Imm12) (s : State), s.sp ≠ 15 → ∃ t u, exec (.call nnn) s = .next t ∧ exec .ret t = .next u ∧
    u.pc = s.pc + 2 ∧ u.sp = s.sp ∧ (∀ k : Fin 16, k.val ≠ s.sp.val + 1 → u.stack[k] = s.stack[k]) ∧
    unchangedBut { pc := true, stack := true } s u

/-! ### Skips (41_skips.md) -/

/-- R80 to R83, R86: each skip on values writes PC alone, PC + 4 when its condition holds and PC + 2 otherwise. -/
def Obligations.ValueSkipsChoosePc : Prop :=
  ∀ (x y : Reg) (kk : Byte) (s : State),
    exec (.seImm x kk) s = .next { s with pc := if s.v[x] = kk then s.pc + 4 else s.pc + 2 } ∧
    exec (.sneImm x kk) s = .next { s with pc := if s.v[x] = kk then s.pc + 2 else s.pc + 4 } ∧
    exec (.seReg x y) s = .next { s with pc := if s.v[x] = s.v[y] then s.pc + 4 else s.pc + 2 } ∧
    exec (.sneReg x y) s = .next { s with pc := if s.v[x] = s.v[y] then s.pc + 2 else s.pc + 4 }

/-- R84, R85, R86: the key skips test the entry that Vx names, and fault when Vx names none (decision D4, log
entry 4). -/
def Obligations.KeySkipsTestLatch : Prop :=
  ∀ (x : Reg) (s : State),
    (s.v[x].toNat > 15 → exec (.skp x) s = .next { s with fault := 4 } ∧
      exec (.sknp x) s = .next { s with fault := 4 }) ∧
    ∀ k : Fin 16, s.v[x].toNat = k.val →
      exec (.skp x) s = .next { s with pc := if s.keys[k] = true then s.pc + 4 else s.pc + 2 } ∧
      exec (.sknp x) s = .next { s with pc := if s.keys[k] = true then s.pc + 2 else s.pc + 4 }

/-! ### Loads of one register (42_immediate.md, 43_alu.md R101, 46_timers_input.md R140) -/

/-- R90, R91, R101, R140: each writes its destination register and PC and nothing else; VF only when x = F. -/
def Obligations.RegisterLoadsWriteOneRegister : Prop :=
  ∀ (x y : Reg) (kk : Byte) (s : State),
    (∃ t, exec (.ldImm x kk) s = .next t ∧ t.v[x] = kk ∧ (∀ r : Reg, r ≠ x → t.v[r] = s.v[r]) ∧
      t.pc = s.pc + 2 ∧ unchangedBut { v := true, pc := true } s t) ∧
    (∃ t, exec (.addImm x kk) s = .next t ∧ t.v[x].toNat = (s.v[x].toNat + kk.toNat) % 256 ∧
      (∀ r : Reg, r ≠ x → t.v[r] = s.v[r]) ∧ t.pc = s.pc + 2 ∧ unchangedBut { v := true, pc := true } s t) ∧
    (∃ t, exec (.ldReg x y) s = .next t ∧ t.v[x] = s.v[y] ∧ (∀ r : Reg, r ≠ x → t.v[r] = s.v[r]) ∧
      t.pc = s.pc + 2 ∧ unchangedBut { v := true, pc := true } s t) ∧
    ∃ t, exec (.ldVxDt x) s = .next t ∧ t.v[x] = s.dt ∧ (∀ r : Reg, r ≠ x → t.v[r] = s.v[r]) ∧
      t.pc = s.pc + 2 ∧ unchangedBut { v := true, pc := true } s t

/-- R92: RND writes the draw masked by kk. The draw is the model's free value (log entries 2 and 3): the statement
holds whatever `Config.rnd` is, and each execution moves on to the next value. -/
def Obligations.RndMasksTheDraw : Prop :=
  ∀ (x : Reg) (kk : Byte) (s : State), ∃ t, exec (.rnd x kk) s = .next t ∧
    t.v[x] = Config.rnd s.draws &&& kk ∧ (∀ b, b < 8 → kk.getLsbD b = false → t.v[x].getLsbD b = false) ∧
    (∀ r : Reg, r ≠ x → t.v[r] = s.v[r]) ∧ t.pc = s.pc + 2 ∧ t.draws = s.draws + 1 ∧
    unchangedBut { v := true, pc := true, draws := true } s t

/-! ### ALU (43_alu.md) -/

/-- R102 to R104: the bitwise operations leave VF = 0, also when VF is the destination. -/
def Obligations.LogicOpsClearVf : Prop :=
  ∀ (x y : Reg) (s : State),
    (∃ t, exec (.orReg x y) s = .next t ∧ (x ≠ regF → t.v[x] = s.v[x] ||| s.v[y]) ∧ t.v[regF] = 0x00 ∧
      (∀ r : Reg, r ≠ x → r ≠ regF → t.v[r] = s.v[r]) ∧ t.pc = s.pc + 2 ∧
      unchangedBut { v := true, pc := true } s t) ∧
    (∃ t, exec (.andReg x y) s = .next t ∧ (x ≠ regF → t.v[x] = s.v[x] &&& s.v[y]) ∧ t.v[regF] = 0x00 ∧
      (∀ r : Reg, r ≠ x → r ≠ regF → t.v[r] = s.v[r]) ∧ t.pc = s.pc + 2 ∧
      unchangedBut { v := true, pc := true } s t) ∧
    ∃ t, exec (.xorReg x y) s = .next t ∧ (x ≠ regF → t.v[x] = s.v[x] ^^^ s.v[y]) ∧ t.v[regF] = 0x00 ∧
      (∀ r : Reg, r ≠ x → r ≠ regF → t.v[r] = s.v[r]) ∧ t.pc = s.pc + 2 ∧
      unchangedBut { v := true, pc := true } s t

/-- R105, R110: the sum modulo 256 and the carry, from the values before the operation; when x = F the carry is what
VF holds (decision D6, log entry 8). -/
def Obligations.AddSetsCarry : Prop :=
  ∀ (x y : Reg) (s : State), ∃ t, exec (.addReg x y) s = .next t ∧
    (x ≠ regF → t.v[x].toNat = (s.v[x].toNat + s.v[y].toNat) % 256) ∧
    t.v[regF] = (if s.v[x].toNat + s.v[y].toNat > 255 then 0x01 else 0x00) ∧
    (∀ r : Reg, r ≠ x → r ≠ regF → t.v[r] = s.v[r]) ∧ t.pc = s.pc + 2 ∧
    unchangedBut { v := true, pc := true } s t

/-- R106, R108, R110: the difference modulo 256 and the not-borrow flag, in both directions; when x = F the flag is
what VF holds (decision D6, log entry 8). -/
def Obligations.SubtractSetsNotBorrow : Prop :=
  ∀ (x y : Reg) (s : State),
    (∃ t, exec (.subReg x y) s = .next t ∧
      (x ≠ regF → t.v[x].toNat = (s.v[x].toNat + 256 - s.v[y].toNat) % 256) ∧
      t.v[regF] = (if s.v[x].toNat ≥ s.v[y].toNat then 0x01 else 0x00) ∧
      (∀ r : Reg, r ≠ x → r ≠ regF → t.v[r] = s.v[r]) ∧ t.pc = s.pc + 2 ∧
      unchangedBut { v := true, pc := true } s t) ∧
    ∃ t, exec (.subnReg x y) s = .next t ∧
      (x ≠ regF → t.v[x].toNat = (s.v[y].toNat + 256 - s.v[x].toNat) % 256) ∧
      t.v[regF] = (if s.v[y].toNat ≥ s.v[x].toNat then 0x01 else 0x00) ∧
      (∀ r : Reg, r ≠ x → r ≠ regF → t.v[r] = s.v[r]) ∧ t.pc = s.pc + 2 ∧
      unchangedBut { v := true, pc := true } s t

/-- R107, R109, R110: the shifts act on Vx in place and leave the bit shifted out in VF; Vy has no effect; when
x = F the flag is what VF holds (decision D6, log entry 8). -/
def Obligations.ShiftsMoveOutOneBit : Prop :=
  ∀ (x y : Reg) (s : State),
    (∃ t, exec (.shr x y) s = .next t ∧ (x ≠ regF → t.v[x].toNat = s.v[x].toNat / 2) ∧
      t.v[regF].toNat = s.v[x].toNat % 2 ∧ (∀ r : Reg, r ≠ x → r ≠ regF → t.v[r] = s.v[r]) ∧
      t.pc = s.pc + 2 ∧ unchangedBut { v := true, pc := true } s t) ∧
    ∃ t, exec (.shl x y) s = .next t ∧ (x ≠ regF → t.v[x].toNat = s.v[x].toNat * 2 % 256) ∧
      t.v[regF].toNat = s.v[x].toNat / 128 ∧ (∀ r : Reg, r ≠ x → r ≠ regF → t.v[r] = s.v[r]) ∧
      t.pc = s.pc + 2 ∧ unchangedBut { v := true, pc := true } s t

/-! ### Memory and index (44_memory_index.md) -/

/-- R120 to R122: the three instructions that set or move I, with no flag and no fault. -/
def Obligations.IndexRegisterIsSet : Prop :=
  ∀ (nnn : Imm12) (x : Reg) (s : State),
    (∃ t, exec (.ldI nnn) s = .next t ∧ t.i.toNat = nnn.toNat ∧ t.pc = s.pc + 2 ∧
      unchangedBut { i := true, pc := true } s t) ∧
    (∃ t, exec (.addI x) s = .next t ∧ t.i.toNat = (s.i.toNat + s.v[x].toNat) % 65536 ∧ t.pc = s.pc + 2 ∧
      unchangedBut { i := true, pc := true } s t) ∧
    ∃ t, exec (.ldF x) s = .next t ∧ t.i.toNat = s.v[x].toNat * 5 ∧ t.pc = s.pc + 2 ∧
      unchangedBut { i := true, pc := true } s t

/-- R124: the three decimal digits of Vx at I, I + 1, I + 2, or MemoryBounds with nothing written (decisions D2,
D3 and D27, log entry 4). -/
def Obligations.BcdStoresThreeDigits : Prop :=
  ∀ (x : Reg) (s : State), Memory.wf s.mem →
    (s.i.toNat + 2 > 4095 → exec (.ldB x) s = .next { s with fault := 3 }) ∧
    (s.i.toNat + 2 ≤ 4095 → ∃ t, exec (.ldB x) s = .next t ∧
      (Memory.read t.mem (baseAddr s)).toNat = s.v[x].toNat / 100 ∧
      (Memory.read t.mem (baseAddr s + 1)).toNat = s.v[x].toNat / 10 % 10 ∧
      (Memory.read t.mem (baseAddr s + 2)).toNat = s.v[x].toNat % 10 ∧
      (∀ a, a < baseAddr s ∨ baseAddr s + 3 ≤ a → Memory.read t.mem a = Memory.read s.mem a) ∧
      t.pc = s.pc + 2 ∧ unchangedBut { mem := true, pc := true } s t)

/-- R125: V0 to Vx at I up, then I by x + 1, or MemoryBounds with nothing written (decisions D2, D3 and D27, log
entry 4). -/
def Obligations.StoreRegsWritesV0ToVx : Prop :=
  ∀ (x : Reg) (s : State), Memory.wf s.mem →
    (s.i.toNat + x.val > 4095 → exec (.storeRegs x) s = .next { s with fault := 3 }) ∧
    (s.i.toNat + x.val ≤ 4095 → ∃ t, exec (.storeRegs x) s = .next t ∧
      (∀ k : Reg, k ≤ x → Memory.read t.mem (baseAddr s + k.val) = s.v[k]) ∧
      (∀ a, a < baseAddr s ∨ baseAddr s + x.val + 1 ≤ a → Memory.read t.mem a = Memory.read s.mem a) ∧
      t.i.toNat = s.i.toNat + x.val + 1 ∧ t.pc = s.pc + 2 ∧
      unchangedBut { mem := true, i := true, pc := true } s t)

/-- R126: V0 to Vx from I up, then I by x + 1, or MemoryBounds with nothing loaded (decisions D2, D3 and D27,
log entry 4). -/
def Obligations.LoadRegsReadsV0ToVx : Prop :=
  ∀ (x : Reg) (s : State),
    (s.i.toNat + x.val > 4095 → exec (.loadRegs x) s = .next { s with fault := 3 }) ∧
    (s.i.toNat + x.val ≤ 4095 → ∃ t, exec (.loadRegs x) s = .next t ∧
      (∀ k : Reg, k ≤ x → t.v[k] = Memory.read s.mem (baseAddr s + k.val)) ∧
      (∀ k : Reg, x < k → t.v[k] = s.v[k]) ∧ t.i.toNat = s.i.toNat + x.val + 1 ∧ t.pc = s.pc + 2 ∧
      unchangedBut { v := true, i := true, pc := true } s t)

/-- R125, R126, 95_test_vectors.md E5: Fx55 and then Fx65 with I restored bring V0 to Vx back, whatever the
registers hold in between. -/
def Obligations.StoreThenLoadRestoresRegisters : Prop :=
  ∀ (x : Reg) (s : State) (between : Vector Byte 16), Memory.wf s.mem → s.i.toNat + x.val ≤ 4095 →
    ∃ t u, exec (.storeRegs x) s = .next t ∧ exec (.loadRegs x) { t with i := s.i, v := between } = .next u ∧
      ∀ k : Reg, (k ≤ x → u.v[k] = s.v[k]) ∧ (x < k → u.v[k] = between[k])

/-- 20_memory.md R40, R32: bytes that Fx55 stores where PC goes next are what the next fetch reads, the lower
address first. -/
def Obligations.StoredBytesAreFetchedNext : Prop :=
  ∀ (x j : Reg) (s : State) (h : j < x), Memory.wf s.mem → s.i.toNat + x.val ≤ 4095 →
    (s.pc + 2).toNat = s.i.toNat + j.val →
    ∃ t, exec (.storeRegs x) s = .next t ∧
      fetch t = s.v[j] ++ s.v[j.val + 1]'(by have := x.isLt; have : j.val < x.val := h; omega)

/-! ### Display (45_display.md) -/

/-- R130, R131: DRW XORs onto each pixel what the sprite covers it with, wrapped per pixel; VF says whether a pixel
that was on was covered; DRAW is set; MemoryBounds leaves everything. Bit 7 is the leftmost pixel (decision D11, log
entry 6); coordinates are the values before VF is touched (decision D7, log entry 14). -/
def Obligations.DrawXorsEveryPixel : Prop :=
  ∀ (x y : Reg) (n : Fin 16) (s : State),
    (n.val ≥ 1 ∧ s.i.toNat + (n.val - 1) > 4095 → exec (.drw x y n) s = .next { s with fault := 3 }) ∧
    (n.val = 0 ∨ s.i.toNat + (n.val - 1) ≤ 4095 → ∃ t, exec (.drw x y n) s = .next t ∧
      (∀ (px : Fin 64) (py : Fin 32), pixel t.fb px py ≠ pixel s.fb px py ↔
        ∃ r c : Nat, r < n.val ∧ c < 8 ∧ px.val = (s.v[x].toNat + c) % 64 ∧
          py.val = (s.v[y].toNat + r) % 32 ∧ (Memory.read s.mem (baseAddr s + r)).getLsbD (7 - c) = true) ∧
      t.v[regF] = (if ∃ (px : Fin 64) (py : Fin 32), pixel s.fb px py = true ∧ pixel t.fb px py = false
        then 0x01 else 0x00) ∧
      (∀ r : Reg, r ≠ regF → t.v[r] = s.v[r]) ∧ t.draw = true ∧ t.pc = s.pc + 2 ∧
      unchangedBut { v := true, fb := true, draw := true, pc := true } s t)

/-- R132, 95_test_vectors.md E3: drawing the same sprite twice restores the framebuffer, and the second draw
collides exactly when the first one turned some pixel on. -/
def Obligations.DrawTwiceRestores : Prop :=
  ∀ (x y : Reg) (n : Fin 16) (s : State), x ≠ regF → y ≠ regF →
    n.val = 0 ∨ s.i.toNat + (n.val - 1) ≤ 4095 →
    ∃ t u, exec (.drw x y n) s = .next t ∧ exec (.drw x y n) t = .next u ∧ u.fb = s.fb ∧
      (u.v[regF] = 0x01 ↔ ∃ (px : Fin 64) (py : Fin 32), pixel s.fb px py = false ∧ pixel t.fb px py = true)

/-! ### Timers and input (46_timers_input.md) -/

/-- R142, R143: the two timer writes copy Vx and change nothing else but PC. -/
def Obligations.TimerWritesCopyVx : Prop :=
  ∀ (x : Reg) (s : State),
    exec (.ldDtVx x) s = .next { s with dt := s.v[x], pc := s.pc + 2 } ∧
    exec (.ldStVx x) s = .next { s with st := s.v[x], pc := s.pc + 2 }

/-- R141: Fx0A stores the number of the least pressed key and advances, or changes nothing at all when none is. -/
def Obligations.KeyWaitTakesLeastKey : Prop :=
  ∀ (x : Reg) (s : State),
    ((∀ k : Fin 16, s.keys[k] = false) → exec (.ldVxK x) s = .next s) ∧
    ∀ k : Fin 16, s.keys[k] = true → (∀ j : Fin 16, j < k → s.keys[j] = false) →
      ∃ t, exec (.ldVxK x) s = .next t ∧ t.v[x].toNat = k.val ∧ (∀ r : Reg, r ≠ x → t.v[r] = s.v[r]) ∧
        t.pc = s.pc + 2 ∧ unchangedBut { v := true, pc := true } s t
end

