-- ==== Sys2Proof/Laws/Encoding.lean ====
section
/-! SUPPORT. The fields and the masked words of the encoding formats (spec/30_encoding.md R51, R52): what each
format holds in each field, and what each mask of the dispatch table (R55) leaves of it. -/

namespace Sys2Proof

variable (op : BitVec 4) (x y : Reg) (n : BitVec 4) (kk : Byte) (nnn : Imm12)

/-! ### Fields -/

@[simp] theorem fieldNNN_wordNNN : fieldNNN (wordNNN op nnn) = nnn := by
  refine BitVec.eq_of_getLsbD_eq fun k hk => ?_
  simp only [fieldNNN, wordNNN, BitVec.getLsbD_extractLsb', BitVec.getLsbD_append]
  simp [hk]

@[simp] theorem fieldKK_wordXKK : fieldKK (wordXKK op x kk) = kk := by
  refine BitVec.eq_of_getLsbD_eq fun k hk => ?_
  simp only [fieldKK, wordXKK, BitVec.getLsbD_extractLsb', BitVec.getLsbD_append]
  simp [hk]

theorem extract_x_wordXKK : (wordXKK op x kk).extractLsb' 8 4 = BitVec.ofFin x := by
  refine BitVec.eq_of_getLsbD_eq fun k hk => ?_
  simp only [wordXKK, BitVec.getLsbD_extractLsb', BitVec.getLsbD_append]
  simp [hk]

theorem extract_x_wordXYN : (wordXYN op x y n).extractLsb' 8 4 = BitVec.ofFin x := by
  refine BitVec.eq_of_getLsbD_eq fun k hk => ?_
  simp only [wordXYN, BitVec.getLsbD_extractLsb', BitVec.getLsbD_append]
  interval_cases k <;> simp

theorem extract_y_wordXYN : (wordXYN op x y n).extractLsb' 4 4 = BitVec.ofFin y := by
  refine BitVec.eq_of_getLsbD_eq fun k hk => ?_
  simp only [wordXYN, BitVec.getLsbD_extractLsb', BitVec.getLsbD_append]
  simp [hk]

theorem extract_n_wordXYN : (wordXYN op x y n).extractLsb' 0 4 = n := by
  refine BitVec.eq_of_getLsbD_eq fun k hk => ?_
  simp only [wordXYN, BitVec.getLsbD_extractLsb', BitVec.getLsbD_append]
  simp [hk]

theorem low_wordXKK : (wordXKK op x kk).extractLsb' 0 8 = kk := fieldKK_wordXKK op x kk

@[simp] theorem fieldX_wordXKK : fieldX (wordXKK op x kk) = x :=
  congrArg BitVec.toFin (extract_x_wordXKK op x kk)

@[simp] theorem fieldX_wordXYN : fieldX (wordXYN op x y n) = x :=
  congrArg BitVec.toFin (extract_x_wordXYN op x y n)

@[simp] theorem fieldY_wordXYN : fieldY (wordXYN op x y n) = y :=
  congrArg BitVec.toFin (extract_y_wordXYN op x y n)

@[simp] theorem fieldN_wordXYN (m : Fin 16) : fieldN (wordXYN op x y (BitVec.ofFin m)) = m :=
  congrArg BitVec.toFin (extract_n_wordXYN op x y (BitVec.ofFin m))

/-! ### The first nibble -/

theorem top_wordNNN : (wordNNN op nnn).extractLsb' 12 4 = op := by
  refine BitVec.eq_of_getLsbD_eq fun k hk => ?_
  simp only [wordNNN, BitVec.getLsbD_extractLsb', BitVec.getLsbD_append]
  simp [hk]

theorem top_wordXKK : (wordXKK op x kk).extractLsb' 12 4 = op := by
  refine BitVec.eq_of_getLsbD_eq fun k hk => ?_
  simp only [wordXKK, BitVec.getLsbD_extractLsb', BitVec.getLsbD_append]
  interval_cases k <;> simp

theorem top_wordXYN : (wordXYN op x y n).extractLsb' 12 4 = op := by
  refine BitVec.eq_of_getLsbD_eq fun k hk => ?_
  simp only [wordXYN, BitVec.getLsbD_extractLsb', BitVec.getLsbD_append]
  interval_cases k <;> simp

/-! ### Masks -/

/-- The mask of formats NNN, XKK and XYN keeps the first nibble. -/
theorem and_topMask (w : Word) : w &&& 0xF000 = w.extractLsb' 12 4 ++ 0#12 := by
  refine BitVec.eq_of_getLsbD_eq fun k hk => ?_
  simp only [BitVec.getLsbD_and, BitVec.getLsbD_append, BitVec.getLsbD_extractLsb']
  interval_cases k <;> simp

/-- The mask of format XY keeps the first and the last nibble. -/
theorem and_xyMask (w : Word) : w &&& 0xF00F = w.extractLsb' 12 4 ++ 0#8 ++ w.extractLsb' 0 4 := by
  refine BitVec.eq_of_getLsbD_eq fun k hk => ?_
  simp only [BitVec.getLsbD_and, BitVec.getLsbD_append, BitVec.getLsbD_extractLsb']
  interval_cases k <;> simp

/-- The mask of format X keeps the first nibble and the low byte. -/
theorem and_xMask (w : Word) : w &&& 0xF0FF = w.extractLsb' 12 4 ++ 0#4 ++ w.extractLsb' 0 8 := by
  refine BitVec.eq_of_getLsbD_eq fun k hk => ?_
  simp only [BitVec.getLsbD_and, BitVec.getLsbD_append, BitVec.getLsbD_extractLsb']
  interval_cases k <;> simp

/-- A word whose first nibble is `op` matches a row that fixes the first nibble to `op`. -/
theorem matches_top {w v : Word} {op : BitVec 4} {build : Word → Instr} (h : w.extractLsb' 12 4 = op)
    (hv : op ++ 0#12 = v) : rowMatches w ⟨0xF000, v, build⟩ = true :=
  beq_iff_eq.2 ((and_topMask w).trans (h ▸ hv))

/-- The same for a row of format XY, which fixes the first and the last nibble. -/
theorem matches_xy {w v : Word} {op low : BitVec 4} {build : Word → Instr} (h : w.extractLsb' 12 4 = op)
    (hl : w.extractLsb' 0 4 = low) (hv : op ++ 0#8 ++ low = v) : rowMatches w ⟨0xF00F, v, build⟩ = true :=
  beq_iff_eq.2 ((and_xyMask w).trans (h ▸ hl ▸ hv))

/-- The same for a row of format X, which fixes the first nibble and the low byte. -/
theorem matches_x {w v : Word} {op : BitVec 4} {low : Byte} {build : Word → Instr}
    (h : w.extractLsb' 12 4 = op) (hl : w.extractLsb' 0 8 = low) (hv : op ++ 0#4 ++ low = v) :
    rowMatches w ⟨0xF0FF, v, build⟩ = true :=
  beq_iff_eq.2 ((and_xMask w).trans (h ▸ hl ▸ hv))

/-! ### Bytes -/

/-- A word is its high byte followed by its low byte. -/
@[simp] theorem highByte_append_lowByte (w : Word) : (highByte w ++ lowByte w : Word) = w := by
  refine BitVec.eq_of_getLsbD_eq fun k hk => ?_
  simp only [highByte, lowByte, BitVec.getLsbD_append, BitVec.getLsbD_extractLsb']
  interval_cases k <;> simp

/-- Decoding the bytes of a word reads that word and leaves the rest. -/
@[simp] theorem decode_wordBytes (w : Word) (rest : List Byte) :
    decode (wordBytes w ++ rest) = .ok (decodeWord w, rest) := by
  simp [wordBytes, decode]

end Sys2Proof
end

