-- ==== Sys2Proof/Laws/Memory.lean ====
section
/-! SUPPORT. The laws of memory (spec/20_memory.md R30): a read after a write to the same address gives the byte
written, a write leaves every other address alone, and every operation keeps the canonical form. -/

namespace Sys2Proof.Machine

@[simp] theorem Memory.read_nil (a : Nat) : Memory.read [] a = background a := rfl

/-- Below every listed address, MEM reads as its reset contents. -/
theorem Memory.read_of_lt {m : Memory} {a : Nat} (h : ∀ c ∈ m, a < c.1) : Memory.read m a = background a := by
  induction m with
  | nil => rfl
  | cons c m ih =>
    obtain ⟨b, w⟩ := c
    have hb : a < b := h (b, w) (by simp)
    have ha : a ≠ b := by omega
    simp only [Memory.read, if_neg ha]
    exact ih fun d hd => h d (by simp [hd])

/-- The one law of a write: it sets its own address and no other. The addresses must rise strictly. -/
theorem Memory.read_write {m : Memory} (hm : m.Pairwise (fun p q => p.1 < q.1)) (a : Nat) (v : Byte) (b : Nat) :
    Memory.read (Memory.write m a v) b = if b = a then v else Memory.read m b := by
  induction m with
  | nil =>
    by_cases hv : v = background a <;> by_cases hb : b = a <;> simp_all [Memory.write, Memory.read]
  | cons c m ih =>
    obtain ⟨e, w⟩ := c
    obtain ⟨he, hm⟩ := List.pairwise_cons.1 hm
    have below : ∀ d, d < e → Memory.read m d = background d := fun d hd =>
      Memory.read_of_lt fun c hc => Nat.lt_trans hd (he c hc)
    have here : ∀ d, d = e → Memory.read m d = background d := fun d hd =>
      Memory.read_of_lt fun c hc => hd ▸ he c hc
    simp only [Memory.write]
    split
    · split <;> by_cases hb : b = a <;> (simp_all [Memory.read]; try omega)
    · split
      · split <;> by_cases hb : b = a <;> simp_all [Memory.read]
      · simp only [Memory.read, ih hm]
        by_cases hb : b = a <;> simp_all

theorem Memory.read_write_self {m : Memory} (hm : Memory.wf m) (a : Nat) (v : Byte) :
    Memory.read (Memory.write m a v) a = v := by simp [Memory.read_write hm.1]

theorem Memory.read_write_other {m : Memory} (hm : Memory.wf m) {a b : Nat} (v : Byte) (h : b ≠ a) :
    Memory.read (Memory.write m a v) b = Memory.read m b := by simp [Memory.read_write hm.1, h]

/-- Every entry of a written memory is an old one or the written one. -/
theorem Memory.mem_write {m : Memory} {a : Nat} {v : Byte} {c : Host.Cell} (h : c ∈ Memory.write m a v) :
    c ∈ m ∨ (c = (a, v) ∧ v ≠ background a) := by
  induction m with
  | nil =>
    simp only [Memory.write] at h
    split at h <;> simp_all
  | cons d m ih =>
    obtain ⟨e, w⟩ := d
    simp only [Memory.write] at h
    split at h
    · split at h <;> (simp_all; try tauto)
    · split at h
      · split at h <;> (simp_all; try tauto)
      · rcases List.mem_cons.1 h with h | h
        · exact .inl (by simp [h])
        · rcases ih h with h | h
          · exact .inl (by simp [h])
          · exact .inr h

/-- A write keeps the addresses strictly rising. -/
theorem Memory.pairwise_write {m : Memory} (hm : m.Pairwise (fun p q => p.1 < q.1)) (a : Nat) (v : Byte) :
    (Memory.write m a v).Pairwise (fun p q => p.1 < q.1) := by
  induction m with
  | nil => simp only [Memory.write]; split <;> simp
  | cons d m ih =>
    obtain ⟨e, w⟩ := d
    obtain ⟨he, hm'⟩ := List.pairwise_cons.1 hm
    simp only [Memory.write]
    split
    · rename_i hlt
      split
      · exact hm
      · refine List.pairwise_cons.2 ⟨fun c hc => ?_, hm⟩
        rcases List.mem_cons.1 hc with rfl | hc
        · exact hlt
        · exact Nat.lt_trans hlt (he c hc)
    · split
      · rename_i heq
        split
        · exact hm'
        · exact List.pairwise_cons.2 ⟨fun c hc => heq ▸ he c hc, hm'⟩
      · rename_i hlt hne
        refine List.pairwise_cons.2 ⟨fun c hc => ?_, ih hm'⟩
        rcases Memory.mem_write hc with hc | ⟨rfl, -⟩
        · exact he c hc
        · show e < a
          omega

/-- A write inside MEM keeps the canonical form. -/
theorem Memory.wf_write {m : Memory} (hm : Memory.wf m) {a : Nat} (ha : a < Config.memSize) (v : Byte) :
    Memory.wf (Memory.write m a v) := by
  refine ⟨Memory.pairwise_write hm.1 a v, fun c hc => ?_⟩
  rcases Memory.mem_write hc with hc | ⟨rfl, hv⟩
  · exact hm.2 c hc
  · exact ⟨ha, hv⟩

/-- A run of writes inside MEM keeps the canonical form. -/
theorem Memory.wf_writeBytes {m : Memory} (hm : Memory.wf m) {base : Nat} {bs : List Byte}
    (h : base + bs.length ≤ Config.memSize) : Memory.wf (Memory.writeBytes m base bs) := by
  induction bs generalizing m base with
  | nil => exact hm
  | cons b bs ih =>
    simp only [List.length_cons] at h
    exact ih (Memory.wf_write hm (by omega) b) (by omega)

/-- The one law of a run of writes: the `k`-th byte lands at `base + k`, and no other address changes. -/
theorem Memory.read_writeBytes {m : Memory} (hm : m.Pairwise (fun p q => p.1 < q.1)) (base : Nat)
    (bs : List Byte) (b : Nat) :
    Memory.read (Memory.writeBytes m base bs) b =
      if base ≤ b ∧ b < base + bs.length then bs.getD (b - base) 0 else Memory.read m b := by
  induction bs generalizing m base with
  | nil => simp [Memory.writeBytes]
  | cons c bs ih =>
    rw [Memory.writeBytes, ih (Memory.pairwise_write hm base c), Memory.read_write hm]
    rcases Nat.lt_trichotomy b base with h | rfl | h
    · rw [if_neg (by omega), if_neg (by omega), if_neg (by omega)]
    · rw [if_neg (by omega), if_pos rfl, if_pos (by simp)]
      simp
    · obtain ⟨j, rfl⟩ := Nat.exists_eq_add_of_lt h
      by_cases hl : j < bs.length
      · rw [if_pos (by omega), if_pos (by simp; omega)]
        have e1 : base + j + 1 - (base + 1) = j := by omega
        have e2 : base + j + 1 - base = j + 1 := by omega
        rw [e1, e2]
        simp
      · rw [if_neg (by omega), if_neg (by omega), if_neg (by simp; omega)]

@[simp] theorem Memory.length_readBytes (m : Memory) (base count : Nat) :
    (Memory.readBytes m base count).length = count := by
  induction count generalizing base with
  | zero => rfl
  | succ n ih => simp [Memory.readBytes, ih]

/-- The `k`-th byte of a run of reads is the one at `base + k`. -/
theorem Memory.getElem_readBytes (m : Memory) (base count k : Nat)
    (h : k < (Memory.readBytes m base count).length) :
    (Memory.readBytes m base count)[k] = Memory.read m (base + k) := by
  induction count generalizing base k with
  | zero => simp [Memory.readBytes] at h
  | succ n ih =>
    cases k with
    | zero => simp [Memory.readBytes]
    | succ k =>
      simp only [Memory.readBytes, List.getElem_cons_succ]
      rw [ih (base + 1) k (by simpa [Memory.readBytes] using h)]
      congr 1
      omega

end Sys2Proof.Machine
end

