-- ==== Sys2Proof/Laws/HostOps.lean ====
section
/-! SUPPORT. What reset with a font and a load can do, each said once. -/

namespace Sys2Proof.Machine

/-- The reset state of the host interface is the one for the default FONT. -/
theorem State.resetWith_defaultFont : State.resetWith defaultFont = State.reset := by decide

/-- MEM after reset: the font, then the zeros of every reset. -/
theorem Memory.read_resetWith (font : Font) (a : Nat) :
    Memory.read (State.resetWith font).mem a = if h : a < 80 then font[a] else 0 := by
  have hr := Memory.read_writeBytes (m := State.reset.mem) List.Pairwise.nil Config.fontBase font.toList a
  simp only [Vector.length_toList, Nat.zero_le, true_and, Nat.zero_add, Nat.sub_zero] at hr
  refine hr.trans ?_
  by_cases h : a < 80
  · simp [h, List.getD, Vector.getElem?_eq_getElem h]
  · rw [if_neg h, dif_neg h]
    exact List.getD_eq_default _ _ (by simpa [defaultFontBytes, fontLow, fontHigh] using h)

/-- Reset leaves MEM in canonical form whatever the font is. -/
theorem Memory.wf_resetWith (font : Font) : Memory.wf (State.resetWith font).mem :=
  Memory.wf_writeBytes (m := State.reset.mem) ⟨List.Pairwise.nil, fun _ h => absurd h List.not_mem_nil⟩
    (by simp [Config.fontBase, Config.memSize])

/-- A load answers one of two things: its one error, or the state with the image in MEM. -/
theorem loadProgram_cases (bytes : List Byte) (s : State) :
    (Config.progMax < bytes.length ∧ loadProgram bytes s = .invalidSize) ∨
      (bytes.length ≤ Config.progMax ∧
        loadProgram bytes s = .ok (s.setMem (Memory.writeBytes s.mem Config.progBase bytes))) := by
  unfold loadProgram
  split
  · exact .inl ⟨‹_›, rfl⟩
  · exact .inr ⟨by omega, rfl⟩

end Sys2Proof.Machine
end

