-- ==== Sys2Proof/Laws/Ops.lean ====
section
/-! SUPPORT. What each shared operation can do, said once: the fault check, the PC writes, fault entry, fetch,
the flag write, the stack, and one pixel. -/

namespace Sys2Proof.Machine

/-! ### Shapes of an outcome -/

/-- A guarded instruction answers the state in which its cause is latched, or its effect. -/
theorem guarded_cases (check : Option Cause) (s effect : State) :
    (∃ c, check = some c ∧ guarded check s effect = .next (raise c s)) ∨
      (check = none ∧ guarded check s effect = .next effect) := by
  cases check with
  | some c => exact .inl ⟨c, rfl, rfl⟩
  | none => exact .inr ⟨rfl, rfl⟩

@[simp] theorem guarded_none (s effect : State) : guarded none s effect = .next effect := rfl

@[simp] theorem guarded_some (c : Cause) (s effect : State) : guarded (some c) s effect = .next (raise c s) := rfl

/-- The bounds check passes exactly when every address touched is inside MEM. -/
theorem boundsCheck_eq_none {base count : Nat} :
    boundsCheck base count = none ↔ count = 0 ∨ base + count ≤ Config.memSize := by
  unfold boundsCheck
  simp only [Config.memSize]
  split
  · simp_all
  · split
    · simp only [reduceCtorEq, false_iff]; omega
    · simp only [true_iff]; omega

/-- When it does not pass, the cause names the highest address. -/
theorem boundsCheck_of_gt {base count : Nat} (hc : count ≠ 0) (h : base + count > Config.memSize) :
    boundsCheck base count = some (.memoryBounds (base + (count - 1))) := by
  unfold boundsCheck
  rw [if_neg hc, if_pos (by simp only [Config.memSize] at *; omega)]

theorem keyCheck_eq_none {a : Byte} : keyCheck a = none ↔ a.toNat ≤ 15 := by
  unfold keyCheck
  split <;> simp <;> omega

theorem keyCheck_of_gt {a : Byte} (h : a.toNat > 15) : keyCheck a = some (.keyIndex a) := if_pos h

/-- A key number that passed the check reads its own entry of the latch. -/
theorem keyOperand_eq (s : State) {a : Byte} (h : a.toNat < 16) : keyOperand s a = s.keys[a.toNat] := by
  simp [keyOperand, Vector.getElem?_eq_getElem h]

/-! ### Fault entry and the PC writes -/

@[simp] theorem raise_eq (c : Cause) (s : State) : raise c s = s.setFault (causeCode c) := rfl

@[simp] theorem advance_eq (s : State) : advance s = s.setPc (s.pc + 2) := rfl

@[simp] theorem skipIf_true (s : State) : skipIf true s = s.setPc (s.pc + 4) := rfl

@[simp] theorem skipIf_false (s : State) : skipIf false s = s.setPc (s.pc + 2) := rfl

theorem causeCode_le (c : Cause) : (causeCode c).toNat ≤ 4 := by cases c <;> simp [causeCode]

theorem causeCode_ne_zero (c : Cause) : causeCode c ≠ 0 := by cases c <;> simp [causeCode]

/-! ### Fetch -/

theorem fetch_of_inside {s : State} (h : s.pc.toNat + 1 < Config.memSize) :
    fetch s = Memory.read s.mem s.pc.toNat ++ Memory.read s.mem (s.pc.toNat + 1) :=
  if_neg (by simp only [Config.memSize] at *; omega)

theorem fetch_of_outside {s : State} (h : Config.memSize ≤ s.pc.toNat + 1) : fetch s = 0x0000 :=
  if_pos (by simp only [Config.memSize] at *; omega)

/-! ### The result and the flag -/

/-- VF ends as the flag whatever the destination was; any other destination ends as the result. -/
theorem getElem_writeResultFlag (s : State) (x : Reg) (result : Byte) (flag : Bool) (r : Reg) :
    (writeResultFlag s x result flag).v[r] =
      if r = regF then flagByte flag else if r = x then result else s.v[r] := by
  simp only [writeResultFlag, State.setV_v, Fin.getElem_fin, Vector.getElem_set]
  simp only [Fin.ext_iff, eq_comm]

/-- A write of one register, read back. -/
theorem getElem_setV (s : State) (x r : Reg) (b : Byte) : (s.setV x b).v[r] = if r = x then b else s.v[r] := by
  simp only [State.setV_v, Fin.getElem_fin, Vector.getElem_set, Fin.ext_iff, eq_comm]

/-! ### The call stack -/

/-- A push writes the slot above the top and no other. -/
theorem getElem_push (w : Word) (s : State) (k : Fin 16) :
    (push w s).stack[k] = if k = s.sp + 1 then w else s.stack[k] := by
  simp only [push, State.setSlot_stack, State.setSp_stack, Fin.getElem_fin, Vector.getElem_set, Fin.ext_iff, eq_comm]

/-! ### The framebuffer -/

@[simp] theorem pixel_blankFb (px : Fin 64) (py : Fin 32) : pixel blankFb px py = false := by
  simp [pixel, blankFb]

/-- Toggling a pixel changes that pixel and no other. -/
theorem pixel_togglePixel (fb : Framebuffer) (px qx : Fin 64) (py qy : Fin 32) :
    pixel (togglePixel fb px py) qx qy = (pixel fb qx qy ^^ decide (qx = px ∧ qy = py)) := by
  simp only [pixel, togglePixel, Fin.getElem_fin, Vector.getElem_set]
  by_cases hy : py = qy
  · subst hy
    simp [Fin.ext_iff, eq_comm]
  · simp [Fin.ext_iff] at hy
    simp [hy, Fin.ext_iff, eq_comm]

/-- Two framebuffers with the same pixels are the same. -/
theorem framebuffer_ext {f g : Framebuffer} (h : ∀ px py, pixel f px py = pixel g px py) : f = g := by
  refine Vector.ext fun j hj => BitVec.eq_of_getLsbD_eq fun k hk => ?_
  exact h ⟨k, hk⟩ ⟨j, hj⟩

end Sys2Proof.Machine
end

