-- ==== Sys2Proof/Laws/PerInstr.lean ====
section
/-! SUPPORT. Statements for all instructions, one lemma for each constructor. EncodesInRow: the word of an instruction
matches the row of the dispatch table that the instruction stands for (spec/30_encoding.md R55), and that row reads
every field of the instruction back. -/

namespace Sys2Proof.Laws.EncodesInRow

/-- The number of the row of R55 that a constructor stands for. -/
def rowNumber : Instr → Nat
  | .cls => 1
  | .ret => 2
  | .sys _ => 3
  | .jp _ => 4
  | .call _ => 5
  | .seImm _ _ => 6
  | .sneImm _ _ => 7
  | .seReg _ _ => 8
  | .ldImm _ _ => 9
  | .addImm _ _ => 10
  | .ldReg _ _ => 11
  | .orReg _ _ => 12
  | .andReg _ _ => 13
  | .xorReg _ _ => 14
  | .addReg _ _ => 15
  | .subReg _ _ => 16
  | .shr _ _ => 17
  | .subnReg _ _ => 18
  | .shl _ _ => 19
  | .sneReg _ _ => 20
  | .ldI _ => 21
  | .jpV0 _ => 22
  | .rnd _ _ => 23
  | .drw _ _ _ => 24
  | .skp _ => 25
  | .sknp _ => 26
  | .ldVxDt _ => 27
  | .ldVxK _ => 28
  | .ldDtVx _ => 29
  | .ldStVx _ => 30
  | .addI _ => 31
  | .ldF _ => 32
  | .ldB _ => 33
  | .storeRegs _ => 34
  | .loadRegs _ => 35
  | .unmatched _ => 36

/-- Rows 1 to 35, then the default row 36, whose mask is 0. -/
def allRows : List Row := dispatchTable ++ [⟨0, 0, .unmatched⟩]

/-- The word of `i` matches the row of `i`, and that row builds `i` from it. -/
def Statement (i : Instr) : Prop :=
  ∃ r, allRows[rowNumber i - 1]? = some r ∧ rowMatches (encode i) r = true ∧ r.build (encode i) = i

theorem cls : Statement .cls := by
  exact ⟨_, rfl, rfl, rfl⟩

theorem ret : Statement .ret := by
  exact ⟨_, rfl, rfl, rfl⟩

theorem sys (nnn : Imm12) : Statement (.sys nnn) := by
  exact ⟨_, rfl, matches_top (top_wordNNN ..) rfl, by simp [encode]⟩

theorem jp (nnn : Imm12) : Statement (.jp nnn) := by
  exact ⟨_, rfl, matches_top (top_wordNNN ..) rfl, by simp [encode]⟩

theorem call (nnn : Imm12) : Statement (.call nnn) := by
  exact ⟨_, rfl, matches_top (top_wordNNN ..) rfl, by simp [encode]⟩

theorem seImm (x : Reg) (kk : Byte) : Statement (.seImm x kk) := by
  exact ⟨_, rfl, matches_top (top_wordXKK ..) rfl, by simp [encode]⟩

theorem sneImm (x : Reg) (kk : Byte) : Statement (.sneImm x kk) := by
  exact ⟨_, rfl, matches_top (top_wordXKK ..) rfl, by simp [encode]⟩

theorem seReg (x : Reg) (y : Reg) : Statement (.seReg x y) := by
  exact ⟨_, rfl, matches_xy (top_wordXYN ..) (extract_n_wordXYN ..) rfl, by simp [encode]⟩

theorem ldImm (x : Reg) (kk : Byte) : Statement (.ldImm x kk) := by
  exact ⟨_, rfl, matches_top (top_wordXKK ..) rfl, by simp [encode]⟩

theorem addImm (x : Reg) (kk : Byte) : Statement (.addImm x kk) := by
  exact ⟨_, rfl, matches_top (top_wordXKK ..) rfl, by simp [encode]⟩

theorem ldReg (x : Reg) (y : Reg) : Statement (.ldReg x y) := by
  exact ⟨_, rfl, matches_xy (top_wordXYN ..) (extract_n_wordXYN ..) rfl, by simp [encode]⟩

theorem orReg (x : Reg) (y : Reg) : Statement (.orReg x y) := by
  exact ⟨_, rfl, matches_xy (top_wordXYN ..) (extract_n_wordXYN ..) rfl, by simp [encode]⟩

theorem andReg (x : Reg) (y : Reg) : Statement (.andReg x y) := by
  exact ⟨_, rfl, matches_xy (top_wordXYN ..) (extract_n_wordXYN ..) rfl, by simp [encode]⟩

theorem xorReg (x : Reg) (y : Reg) : Statement (.xorReg x y) := by
  exact ⟨_, rfl, matches_xy (top_wordXYN ..) (extract_n_wordXYN ..) rfl, by simp [encode]⟩

theorem addReg (x : Reg) (y : Reg) : Statement (.addReg x y) := by
  exact ⟨_, rfl, matches_xy (top_wordXYN ..) (extract_n_wordXYN ..) rfl, by simp [encode]⟩

theorem subReg (x : Reg) (y : Reg) : Statement (.subReg x y) := by
  exact ⟨_, rfl, matches_xy (top_wordXYN ..) (extract_n_wordXYN ..) rfl, by simp [encode]⟩

theorem shr (x : Reg) (y : Reg) : Statement (.shr x y) := by
  exact ⟨_, rfl, matches_xy (top_wordXYN ..) (extract_n_wordXYN ..) rfl, by simp [encode]⟩

theorem subnReg (x : Reg) (y : Reg) : Statement (.subnReg x y) := by
  exact ⟨_, rfl, matches_xy (top_wordXYN ..) (extract_n_wordXYN ..) rfl, by simp [encode]⟩

theorem shl (x : Reg) (y : Reg) : Statement (.shl x y) := by
  exact ⟨_, rfl, matches_xy (top_wordXYN ..) (extract_n_wordXYN ..) rfl, by simp [encode]⟩

theorem sneReg (x : Reg) (y : Reg) : Statement (.sneReg x y) := by
  exact ⟨_, rfl, matches_xy (top_wordXYN ..) (extract_n_wordXYN ..) rfl, by simp [encode]⟩

theorem ldI (nnn : Imm12) : Statement (.ldI nnn) := by
  exact ⟨_, rfl, matches_top (top_wordNNN ..) rfl, by simp [encode]⟩

theorem jpV0 (nnn : Imm12) : Statement (.jpV0 nnn) := by
  exact ⟨_, rfl, matches_top (top_wordNNN ..) rfl, by simp [encode]⟩

theorem rnd (x : Reg) (kk : Byte) : Statement (.rnd x kk) := by
  exact ⟨_, rfl, matches_top (top_wordXKK ..) rfl, by simp [encode]⟩

theorem drw (x : Reg) (y : Reg) (n : Fin 16) : Statement (.drw x y n) := by
  exact ⟨_, rfl, matches_top (top_wordXYN ..) rfl, by simp [encode]⟩

theorem skp (x : Reg) : Statement (.skp x) := by
  exact ⟨_, rfl, matches_x (top_wordXKK ..) (low_wordXKK ..) rfl, by simp [encode]⟩

theorem sknp (x : Reg) : Statement (.sknp x) := by
  exact ⟨_, rfl, matches_x (top_wordXKK ..) (low_wordXKK ..) rfl, by simp [encode]⟩

theorem ldVxDt (x : Reg) : Statement (.ldVxDt x) := by
  exact ⟨_, rfl, matches_x (top_wordXKK ..) (low_wordXKK ..) rfl, by simp [encode]⟩

theorem ldVxK (x : Reg) : Statement (.ldVxK x) := by
  exact ⟨_, rfl, matches_x (top_wordXKK ..) (low_wordXKK ..) rfl, by simp [encode]⟩

theorem ldDtVx (x : Reg) : Statement (.ldDtVx x) := by
  exact ⟨_, rfl, matches_x (top_wordXKK ..) (low_wordXKK ..) rfl, by simp [encode]⟩

theorem ldStVx (x : Reg) : Statement (.ldStVx x) := by
  exact ⟨_, rfl, matches_x (top_wordXKK ..) (low_wordXKK ..) rfl, by simp [encode]⟩

theorem addI (x : Reg) : Statement (.addI x) := by
  exact ⟨_, rfl, matches_x (top_wordXKK ..) (low_wordXKK ..) rfl, by simp [encode]⟩

theorem ldF (x : Reg) : Statement (.ldF x) := by
  exact ⟨_, rfl, matches_x (top_wordXKK ..) (low_wordXKK ..) rfl, by simp [encode]⟩

theorem ldB (x : Reg) : Statement (.ldB x) := by
  exact ⟨_, rfl, matches_x (top_wordXKK ..) (low_wordXKK ..) rfl, by simp [encode]⟩

theorem storeRegs (x : Reg) : Statement (.storeRegs x) := by
  exact ⟨_, rfl, matches_x (top_wordXKK ..) (low_wordXKK ..) rfl, by simp [encode]⟩

theorem loadRegs (x : Reg) : Statement (.loadRegs x) := by
  exact ⟨_, rfl, matches_x (top_wordXKK ..) (low_wordXKK ..) rfl, by simp [encode]⟩

theorem unmatched (w : Word) : Statement (.unmatched w) := by
  exact ⟨_, rfl, by simp [rowMatches, encode], rfl⟩

end Sys2Proof.Laws.EncodesInRow
end

