-- ==== Sys2Proof/Tests/Slice0.lean ====
section
/-! SUPPORT. Small tests. Every expected value is taken from the spec: from spec/95_test_vectors.md (the vector's
name stands beside the test) or from a rule's own example. The last part shows, for each statement that has
hypotheses, states and operands that meet them. -/

namespace Sys2Proof.Tests

open Sys2Proof Sys2Proof.Machine

/-- The next state of an outcome. -/
def after : Host.Outcome State Fault Refusal → Option State
  | .next t => some t
  | .fault _ | .refused _ => none

/-- One step on a word placed at PC. -/
def run (w : Nat) (s : State) : Option State := after (step (s.withFetchWord 16 w))

/-- The report of one step on a word placed at PC. -/
def report (w : Nat) (s : State) : StepReport := stepReport (s.withFetchWord 16 w)

/-- Reset with some bytes of MEM written. -/
def withBytes (base : Nat) (bytes : List Byte) : State :=
  State.reset.setMem (Memory.writeBytes State.reset.mem base bytes)

/-- Reset with one fault latched. -/
def faulted : State := State.reset.setFault 3

/-- Whether pixels are lit. -/
def lit (ps : List (Fin 64 × Fin 32)) (s : State) : List Bool := ps.map fun p => pixel s.fb p.1 p.2

/-- A framebuffer with some pixels lit. -/
def screen (ps : List (Fin 64 × Fin 32)) : Framebuffer := ps.foldl (fun fb p => togglePixel fb p.1 p.2) blankFb

/-! ### Well-formedness (30_encoding.md R56, R58): the ill-formed terms -/

/-- 0x00E0 is CLS. -/
theorem test_wf_refuses_cls_word_as_sys : (Instr.sys 0x0E0).wf = false := by decide

/-- 0x00EE is RET. -/
theorem test_wf_refuses_ret_word_as_sys : (Instr.sys 0x0EE).wf = false := by decide

/-- A word of rows 1 to 35 is not unmatched. -/
theorem test_wf_refuses_matched_words_as_unmatched :
    [0x00E0, 0x5120, 0x6A12, 0x812E, 0x9120, 0xE19E, 0xF165].all (fun w => !(Instr.unmatched w).wf) = true := by
  decide

/-- The words that 95_test_vectors.md 2.1 gives to row 36, one of each of R58's classes and more. -/
theorem test_wf_accepts_unmatched_words :
    [0x5121, 0x512F, 0x8128, 0x812D, 0x812F, 0x9121, 0xE000, 0xE09F, 0xE0A0, 0xF000, 0xF075, 0xFFFF].all
      (fun w => (Instr.unmatched w).wf) = true := by decide

theorem test_wf_accepts_other_sys : (Instr.sys 0x0E1).wf = true := by decide

/-! ### Decoding: one word of every row, written out from R52's formats and R55's values -/

theorem test_decode_cls : decodeWord 0b0000000011100000#16 = .cls := by decide
theorem test_decode_ret : decodeWord 0b0000000011101110#16 = .ret := by decide
theorem test_decode_sys : decodeWord 0b0000000100100011#16 = .sys 0x123 := by decide
theorem test_decode_jp : decodeWord 0b0001101010111100#16 = .jp 0xABC := by decide
theorem test_decode_call : decodeWord 0b0010101010111100#16 = .call 0xABC := by decide
theorem test_decode_seImm : decodeWord 0b0011111100000001#16 = .seImm 0xF 0x01 := by decide
theorem test_decode_sneImm : decodeWord 0b0100001100010001#16 = .sneImm 3 0x11 := by decide
theorem test_decode_seReg : decodeWord 0b0101000100100000#16 = .seReg 1 2 := by decide
theorem test_decode_ldImm : decodeWord 0b0110101000010010#16 = .ldImm 0xA 0x12 := by decide
theorem test_decode_addImm : decodeWord 0b0111000100000101#16 = .addImm 1 0x05 := by decide
theorem test_decode_ldReg : decodeWord 0b1000101010110000#16 = .ldReg 0xA 0xB := by decide
theorem test_decode_orReg : decodeWord 0b1000101010110001#16 = .orReg 0xA 0xB := by decide
theorem test_decode_andReg : decodeWord 0b1000101010110010#16 = .andReg 0xA 0xB := by decide
theorem test_decode_xorReg : decodeWord 0b1000101010110011#16 = .xorReg 0xA 0xB := by decide
theorem test_decode_addReg : decodeWord 0b1000101010110100#16 = .addReg 0xA 0xB := by decide
theorem test_decode_subReg : decodeWord 0b1000101010110101#16 = .subReg 0xA 0xB := by decide
theorem test_decode_shr : decodeWord 0b1000101010110110#16 = .shr 0xA 0xB := by decide
theorem test_decode_subnReg : decodeWord 0b1000101010110111#16 = .subnReg 0xA 0xB := by decide
theorem test_decode_shl : decodeWord 0b1000101010111110#16 = .shl 0xA 0xB := by decide
theorem test_decode_sneReg : decodeWord 0b1001000100100000#16 = .sneReg 1 2 := by decide
theorem test_decode_ldI : decodeWord 0b1010001000001000#16 = .ldI 0x208 := by decide
theorem test_decode_jpV0 : decodeWord 0b1011001100000000#16 = .jpV0 0x300 := by decide
theorem test_decode_rnd : decodeWord 0b1100001100001111#16 = .rnd 3 0x0F := by decide
theorem test_decode_drw : decodeWord 0b1101000100101111#16 = .drw 1 2 15 := by decide
theorem test_decode_skp : decodeWord 0b1110111110011110#16 = .skp 0xF := by decide
theorem test_decode_sknp : decodeWord 0b1110010110100001#16 = .sknp 5 := by decide
theorem test_decode_ldVxDt : decodeWord 0b1111000100000111#16 = .ldVxDt 1 := by decide
theorem test_decode_ldVxK : decodeWord 0b1111001000001010#16 = .ldVxK 2 := by decide
theorem test_decode_ldDtVx : decodeWord 0b1111000000010101#16 = .ldDtVx 0 := by decide
theorem test_decode_ldStVx : decodeWord 0b1111001000011000#16 = .ldStVx 2 := by decide
theorem test_decode_addI : decodeWord 0b1111001000011110#16 = .addI 2 := by decide
theorem test_decode_ldF : decodeWord 0b1111000100101001#16 = .ldF 1 := by decide
theorem test_decode_ldB : decodeWord 0b1111000000110011#16 = .ldB 0 := by decide
theorem test_decode_storeRegs : decodeWord 0b1111001001010101#16 = .storeRegs 2 := by decide
theorem test_decode_loadRegs : decodeWord 0b1111111101100101#16 = .loadRegs 0xF := by decide
theorem test_decode_unmatched : decodeWord 0b1111000001110101#16 = .unmatched 0xF075 := by decide

/-- The near misses of rows 1 and 2 (2.1). -/
theorem test_decode_near_misses :
    [0x00E1, 0x00EF, 0x00FF, 0x0E00, 0x0FFF].map decodeWord =
      [.sys 0x0E1, .sys 0x0EF, .sys 0x0FF, .sys 0xE00, .sys 0xFFF] := by decide

/-- One byte is not an instruction (R50). -/
theorem test_decode_truncated : decode [0x6A] = .error .truncated := by rfl

/-- E6: the bytes 6A 12, the high one first. -/
theorem test_decode_bytes : decode [0x6A, 0x12, 0x00] = .ok (.ldImm 0xA 0x12, [0x00]) := by rfl

theorem test_decode_table_word : decodeTableWord 16 0x6A12 = some (.ldImm 0xA 0x12) := by decide

/-! ### Fetch (2.2) -/

/-- MEM[0FFD..0FFF] = 6A 60 12 and PC as given. -/
def edge (pc : Word) : State := (withBytes 0xFFD [0x6A, 0x60, 0x12]).setPc pc

/-- G1: an odd PC. -/
theorem test_fetch_odd : (after (step (edge 0x0FFD))).map (fun t => (t.v[10], t.pc)) = some (0x60, 0x0FFF) := by decide

/-- G2 and G3: the last fetchable address and the one after it. -/
theorem test_fetch_guard :
    (after (step (edge 0x0FFE))).map (fun t => (t.v[0], t.pc)) = some (0x12, 0x1000) ∧
    (after (step (edge 0x0FFF))).map (fun t => (t.v[0], t.pc)) = some (0x00, 0x1001) := by decide

/-- G6: the wrap of PC. -/
theorem test_pc_wraps : (after (step (edge 0xFFFF))).map (·.pc) = some 0x0001 := by decide

/-! ### Control flow (2.3) -/

/-- C1. -/
theorem test_cls : (run 0x00E0 (State.reset.setFb (screen [(0, 0), (63, 31)]))).map
    (fun t => (lit [(0, 0), (63, 31)] t, t.pc)) = some ([false, false], 0x0202) := by decide

/-- C2: `changed` is 1 on a clear screen too. -/
theorem test_cls_reports_change : (report 0x00E0 State.reset).changed = true := by decide

/-- C4. -/
theorem test_sys : (run 0x00E1 (State.reset.setPc 0x0300)).map (·.pc) = some 0x0302 := by decide

/-- C5: the slot keeps its value. -/
theorem test_ret : (run 0x00EE (((State.reset.setPc 0x0210).setSp 1).setSlot 1 0x0206)).map
    (fun t => (t.pc, t.sp, t.stack[1])) = some (0x0206, 0, 0x0206) := by decide

/-- C7. -/
theorem test_ret_underflow : (run 0x00EE State.reset).map (fun t => (t.pc, t.sp, t.fault)) = some (0x0200, 0, 2) ∧
    (report 0x00EE State.reset).fault = 2 := by decide

/-- C9. -/
theorem test_jp_to_self : (run 0x1208 (State.reset.setPc 0x0208)).map (·.pc) = some 0x0208 := by decide

/-- C14: the sixteenth slot is reached. -/
theorem test_call : (run 0x2ABC ((State.reset.setPc 0x0400).setSp 14)).map (fun t => (t.sp, t.stack[15], t.pc)) =
    some (15, 0x0402, 0x0ABC) := by decide

/-- C15. -/
theorem test_call_overflow : (run 0x2ABC ((State.reset.setPc 0x0400).setSp 15)).map
    (fun t => (t.pc, t.sp, t.stack[15], t.fault)) = some (0x0400, 15, 0x0000, 1) := by decide

/-- C18 and C20: the sum is not masked. -/
theorem test_jpV0 : (run 0xBFFF (State.reset.setV 0 0xFF)).map (·.pc) = some 0x10FE ∧
    (run 0xBFFE (State.reset.setV 0 0x02)).map (·.pc) = some 0x1000 := by decide

/-- C19: V0 is added, not Vx. -/
theorem test_jpV0_uses_v0 : (run 0xB201 ((State.reset.setV 0 0x02).setV 3 0x55)).map (·.pc) = some 0x0203 := by decide

/-- 2.1, the last line. -/
theorem test_unmatched : (run 0xF075 ((State.reset.setPc 0x0300).setV 0 0x11)).map (fun t => (t.pc, t.v[0], t.fault)) =
    some (0x0302, 0x11, 0) := by decide

/-- Q13. -/
theorem test_unmatched_is_no_skip : (run 0x5011 ((State.reset.setV 0 5).setV 1 5)).map (·.pc) = some 0x0202 := by
  decide

/-! ### Skips (2.4) -/

/-- Q1, Q2. -/
theorem test_seImm : (run 0x3000 State.reset).map (·.pc) = some 0x0204 ∧
    (run 0x3000 (State.reset.setV 0 0x02)).map (·.pc) = some 0x0202 := by decide

/-- Q5, Q6. -/
theorem test_sneImm : (run 0x4311 (State.reset.setV 3 0x10)).map (·.pc) = some 0x0204 ∧
    (run 0x4310 (State.reset.setV 3 0x10)).map (·.pc) = some 0x0202 := by decide

/-- Q8, Q9. -/
theorem test_seReg : (run 0x5010 ((State.reset.setV 0 0x7F).setV 1 0x80)).map (·.pc) = some 0x0202 ∧
    (run 0x5330 (State.reset.setV 3 0x09)).map (·.pc) = some 0x0204 := by decide

/-- Q10, Q12. -/
theorem test_sneReg : (run 0x9010 ((State.reset.setV 0 0x01).setV 1 0x02)).map (·.pc) = some 0x0204 ∧
    (run 0x9330 (State.reset.setV 3 0x09)).map (·.pc) = some 0x0202 := by decide

/-- Q19, Q16. -/
theorem test_skp : (run 0xE59E ((State.reset.setV 5 0x0F).setKeyAt 15 true)).map (·.pc) = some 0x0204 ∧
    (run 0xE59E (State.reset.setV 5 0x0A)).map (·.pc) = some 0x0202 := by decide

/-- Q20. -/
theorem test_skp_faults : (run 0xE59E (State.reset.setV 5 0x10)).map (fun t => (t.pc, t.fault)) = some (0x0200, 4) := by
  decide

/-- Q17, Q18. -/
theorem test_sknp : (run 0xE5A1 (State.reset.setV 5 0x0A)).map (·.pc) = some 0x0204 ∧
    (run 0xE5A1 ((State.reset.setV 5 0x0A).setKeyAt 10 true)).map (·.pc) = some 0x0202 := by decide

/-- Q21. -/
theorem test_sknp_faults : (run 0xE5A1 (State.reset.setV 5 0xFF)).map (fun t => (t.pc, t.fault)) = some (0x0200, 4) := by
  decide

/-! ### Immediate (2.5) -/

/-- M1 (the source's E6), M2. -/
theorem test_ldImm : (run 0x6A12 State.reset).map (fun t => (t.v[10], t.pc)) = some (0x12, 0x0202) ∧
    (run 0x6FAB State.reset).map (fun t => t.v[15]) = some 0xAB := by decide

/-- M3: no flag. -/
theorem test_addImm : (run 0x7105 ((State.reset.setV 1 0xFE).setV 15 0x01)).map (fun t => (t.v[1], t.v[15])) =
    some (0x03, 0x01) := by decide

/-- M7: VF as destination holds the sum. -/
theorem test_addImm_vf : (run 0x7F02 (State.reset.setV 15 0xFF)).map (fun t => t.v[15]) = some 0x01 := by decide

/-- M9: for every draw. -/
theorem test_rnd_mask_zero : (after (exec (.rnd 3 0x00) State.reset)).map (fun t => (t.v[3], t.pc)) =
    some (0x00, 0x0202) := by
  have h : Config.rnd 0 &&& 0x00#8 = 0x00#8 := BitVec.and_zero
  simp [exec, execRnd, after, advance, State.setV, State.countDraw, State.setPc, State.reset, h]

/-! ### ALU (2.6) -/

/-- V0, V1 and VF as a row of the table gives them. -/
def alu (a b f : Byte) : State := ((State.reset.setV 0 a).setV 1 b).setV 15 f

/-- V0 and VF after a word. -/
def aluRun (w : Nat) (s : State) : Option (Byte × Byte) := (run w s).map fun t => (t.v[0], t.v[15])

/-- A1. -/
theorem test_ldReg : aluRun 0x8010 (alu 0x12 0x5A 0x01) = some (0x5A, 0x01) := by decide

/-- A37. -/
theorem test_ldReg_vf : (run 0x8F10 (alu 0x00 0x77 0x01)).map (fun t => t.v[15]) = some 0x77 := by decide

/-- A2. -/
theorem test_orReg : aluRun 0x8011 (alu 0xF0 0x0F 0x01) = some (0xFF, 0x00) := by decide

/-- A36. -/
theorem test_orReg_vf : (run 0x8F11 (alu 0x00 0x0F 0xF0)).map (fun t => t.v[15]) = some 0x00 := by decide

/-- A3. -/
theorem test_andReg : aluRun 0x8012 (alu 0xFC 0x3F 0x01) = some (0x3C, 0x00) := by decide

/-- A4. -/
theorem test_xorReg : aluRun 0x8013 (alu 0xFF 0x0F 0x01) = some (0xF0, 0x00) := by decide

/-- A6, A7. -/
theorem test_addReg : aluRun 0x8014 (alu 0xFF 0xFF 0x00) = some (0xFE, 0x01) ∧
    aluRun 0x8014 (alu 0x80 0x7F 0x01) = some (0xFF, 0x00) := by decide

/-- A27 (x = F), A38 (y = F). -/
theorem test_addReg_vf : (run 0x8F14 (alu 0x00 0x02 0xFF)).map (fun t => t.v[15]) = some 0x01 ∧
    aluRun 0x80F4 (alu 0x10 0x00 0x01) = some (0x11, 0x00) := by decide

/-- A10, A11. -/
theorem test_subReg : aluRun 0x8015 (alu 0x00 0x01 0x01) = some (0xFF, 0x00) ∧
    aluRun 0x8015 (alu 0x33 0x33 0x00) = some (0x00, 0x01) := by decide

/-- A30. -/
theorem test_subReg_vf : (run 0x8F15 (alu 0x00 0x05 0x03)).map (fun t => t.v[15]) = some 0x00 := by decide

/-- A15: V1 has no effect. -/
theorem test_shr : aluRun 0x8016 (alu 0x05 0xAA 0x00) = some (0x02, 0x01) := by decide

/-- A31. -/
theorem test_shr_vf : (run 0x8F16 (alu 0x00 0x00 0x03)).map (fun t => t.v[15]) = some 0x01 := by decide

/-- A19, A22. -/
theorem test_subnReg : aluRun 0x8017 (alu 0x03 0x0A 0x00) = some (0x07, 0x01) ∧
    aluRun 0x8017 (alu 0x01 0x00 0x01) = some (0xFF, 0x00) := by decide

/-- A33. -/
theorem test_subnReg_vf : (run 0x8F17 (alu 0x00 0x03 0x05)).map (fun t => t.v[15]) = some 0x00 := by decide

/-- A24, A25: V1 has no effect. -/
theorem test_shl : aluRun 0x801E (alu 0x80 0x55 0x00) = some (0x00, 0x01) ∧
    aluRun 0x801E (alu 0x7F 0xFF 0x01) = some (0xFE, 0x00) := by decide

/-- A34. -/
theorem test_shl_vf : (run 0x8F1E (alu 0x00 0x00 0x81)).map (fun t => t.v[15]) = some 0x01 := by decide

/-! ### Memory and index (2.7) -/

/-- X3. -/
theorem test_ldI : (run 0xAFFF State.reset).map (·.i) = some 0x0FFF := by decide

/-- X5, X6: VF is untouched. -/
theorem test_addI :
    (run 0xF21E (((State.reset.setI 0xFFFF).setV 2 0x01).setV 15 0x01)).map (fun t => (t.i, t.v[15])) =
      some (0x0000, 0x01) ∧
    (run 0xF21E (((State.reset.setI 0x0FFF).setV 2 0x01).setV 15 0x01)).map (fun t => (t.i, t.v[15])) =
      some (0x1000, 0x01) := by decide

/-- X11, X13: Vx is not masked. -/
theorem test_ldF : (run 0xF129 (State.reset.setV 1 0x0F)).map (·.i) = some 0x004B ∧
    (run 0xF129 (State.reset.setV 1 0xFF)).map (·.i) = some 0x04FB := by decide

/-- X14 (the source's E7). -/
theorem test_ldB : (run 0xF033 ((State.reset.setV 0 0x9D).setI 0x0300)).map
    (fun t => (Memory.readBytes t.mem 0x300 3, t.i)) = some ([0x01, 0x05, 0x07], 0x0300) := by decide

/-- X22, X23: the last address, and no partial store. -/
theorem test_ldB_bounds :
    (run 0xF033 ((State.reset.setV 0 0x7B).setI 0x0FFD)).map
      (fun t => (Memory.readBytes t.mem 0xFFD 3, t.fault)) = some ([0x01, 0x02, 0x03], 0) ∧
    (run 0xF033 ((State.reset.setV 0 0x7B).setI 0x0FFE)).map
      (fun t => (Memory.readBytes t.mem 0xFFE 2, t.pc, t.fault)) = some ([0x00, 0x00], 0x0200, 3) := by decide

/-- X26. -/
theorem test_storeRegs :
    (run 0xF255 (((((State.reset.setV 0 0x11).setV 1 0x22).setV 2 0x33).setV 3 0x44).setI 0x0300)).map
      (fun t => (Memory.readBytes t.mem 0x300 4, t.i)) = some ([0x11, 0x22, 0x33, 0x00], 0x0303) := by decide

/-- X30, X31. -/
theorem test_storeRegs_bounds :
    (run 0xF055 ((State.reset.setV 0 0x77).setI 0x0FFF)).map (fun t => (Memory.read t.mem 0xFFF, t.i)) =
      some (0x77, 0x1000) ∧
    (run 0xF055 ((State.reset.setV 0 0x77).setI 0x1000)).map (fun t => (t.i, t.pc, t.fault)) =
      some (0x1000, 0x0200, 3) := by decide

/-- X33: the default font. -/
theorem test_loadRegs : (run 0xFF65 State.reset).map (fun t => (t.v.toList, t.i)) =
    some ([0xF0, 0x90, 0x90, 0x90, 0xF0, 0x20, 0x60, 0x20, 0x20, 0x70, 0xF0, 0x10, 0xF0, 0x80, 0xF0, 0xF0],
      0x0010) := by decide

/-- X34, X35. -/
theorem test_loadRegs_bounds :
    (run 0xF165 ((withBytes 0xFFE [0x5A, 0xA5]).setI 0x0FFE)).map (fun t => (t.v[0], t.v[1], t.i)) =
      some (0x5A, 0xA5, 0x1000) ∧
    (run 0xF265 ((withBytes 0xFFE [0x5A, 0xA5]).setI 0x0FFE)).map (fun t => (t.v[0], t.i, t.fault)) =
      some (0x00, 0x0FFE, 3) := by decide

/-! ### Display (2.8) -/

/-- W5: wraps both ways. -/
theorem test_drw_wraps :
    (run 0xD012 ((((withBytes 0x300 [0xC0, 0xC0]).setI 0x0300).setV 0 0x3F).setV 1 0x1F)).map
      (fun t => (lit [(63, 31), (0, 31), (63, 0), (0, 0), (1, 0), (0, 1)] t, t.v[15])) =
    some ([true, true, true, true, false, false], 0x00) := by decide

/-- W9: one pixel collides. -/
theorem test_drw_collides :
    (run 0xD011 ((((withBytes 0x300 [0xC0]).setI 0x0300).setV 0 0x01).setFb (screen [(0, 0), (1, 0)]))).map
      (fun t => (lit [(0, 0), (1, 0), (2, 0)] t, t.v[15])) = some ([true, false, true], 0x01) := by decide

/-! ### Timers and input (2.9) -/

/-- K1. -/
theorem test_ldVxDt : (run 0xF107 (State.reset.setDt 3)).map (fun t => (t.v[1], t.dt)) = some (0x03, 0x03) := by decide

/-- K5: nothing changes, and the step is not a change. -/
theorem test_ldVxK_waits : (run 0xF20A (State.reset.setPc 0x020A)).map (fun t => (t.v[2], t.pc)) =
    some (0x00, 0x020A) ∧ (report 0xF20A (State.reset.setPc 0x020A)).changed = false := by decide

/-- K6: the least key. -/
theorem test_ldVxK : (run 0xF20A ((((State.reset.setPc 0x020A).setKeyAt 7 true).setKeyAt 12 true).setV 2 0xEE)).map
    (fun t => (t.v[2], t.pc)) = some (0x07, 0x020C) := by decide

/-- K3. -/
theorem test_ldDtVx : (run 0xF015 ((State.reset.setV 0 0x03).setDt 0x80)).map (fun t => (t.dt, t.st)) =
    some (0x03, 0x00) := by decide

/-- K4. -/
theorem test_ldStVx : (run 0xF218 (State.reset.setV 2 0x07)).map (fun t => (t.st, t.dt)) = some (0x07, 0x00) := by
  decide

/-- K11. -/
theorem test_tick : (tickTimers ((State.reset.setDt 0xFF).setSt 0x01)).dt = 0xFE ∧
    (tickTimers ((State.reset.setDt 0xFF).setSt 0x01)).st = 0x00 ∧ (tickTimers State.reset).dt = 0x00 := by decide

/-- K15: a tick acts in a faulted state. -/
theorem test_tick_when_faulted : (tickTimers (faulted.setDt 0x05)).dt = 0x04 ∧
    (tickTimers (faulted.setDt 0x05)).fault = 3 := by decide

/-- K12, K14. -/
theorem test_setKey : (setKey 10 true State.reset).keys[10] = true ∧
    (setKey 10 false (setKey 10 true State.reset)).keys[10] = false := by decide

/-! ### Reset and load (2.10) -/

/-- L1. -/
theorem test_reset_memory : Memory.readBytes State.reset.mem 0x000 5 = [0xF0, 0x90, 0x90, 0x90, 0xF0] ∧
    Memory.readBytes State.reset.mem 0x04B 6 = [0xF0, 0x80, 0xF0, 0x80, 0x80, 0x00] ∧
    Memory.read State.reset.mem 0xFFF = 0x00 := by decide

/-- R6, R170: reset takes any FONT; here 80 bytes 0xA5, of which the first and the last are read back. -/
theorem test_reset_other_font :
    (Memory.read (State.resetWith (Vector.replicate 80 0xA5)).mem 0x000,
      Memory.read (State.resetWith (Vector.replicate 80 0xA5)).mem 0x04F,
      Memory.read (State.resetWith (Vector.replicate 80 0xA5)).mem 0x050) = (0xA5, 0xA5, 0x00) := by decide

/-- The state that a successful load leaves. -/
def loaded (bytes : List Byte) : Option State :=
  match loadProgram bytes State.reset with
  | .ok t => some t
  | .invalidSize => none

/-- L3: one byte. -/
theorem test_load_one_byte : ((loaded [0x6A]).bind fun t => after (step t)).map (fun t => (t.v[10], t.pc)) =
    some (0x00, 0x0202) ∧ (loaded [0x6A]).map (fun t => Memory.readBytes t.mem 0x200 2) = some [0x6A, 0x00] := by decide

/-- L5: one byte too many. -/
theorem test_load_too_long : loaded (List.replicate 3585 0xFF) = none := by
  unfold loaded loadProgram
  rw [if_pos (by rw [List.length_replicate]; decide)]

/-- L7. -/
theorem test_step_when_faulted : after (step faulted) = some faulted ∧ (stepReport faulted).fault = 3 := by
  exact ⟨rfl, rfl⟩

/-! ### Witnesses: states and operands that meet the hypotheses of the statements, at the ends of their ranges -/

/-- DecodeOfEncode. -/
theorem witness_wf : (Instr.unmatched 0x5121).wf = true ∧ (Instr.sys 0xFFF).wf = true ∧ (Instr.drw 15 15 15).wf = true := by
  decide

/-- RowsOverlapOnlyAtClsAndRet, its first case. -/
theorem witness_overlap_cls : ∃ r q, dispatchTable[0]? = some r ∧ dispatchTable[2]? = some q ∧
    rowMatches 0x00E0 r = true ∧ rowMatches 0x00E0 q = true := ⟨_, _, rfl, rfl, by decide, by decide⟩

/-- RowsOverlapOnlyAtClsAndRet, its second case. -/
theorem witness_overlap_ret : ∃ r q, dispatchTable[1]? = some r ∧ dispatchTable[2]? = some q ∧
    rowMatches 0x00EE r = true ∧ rowMatches 0x00EE q = true := ⟨_, _, rfl, rfl, by decide, by decide⟩

/-- StepRunsDecodedInstruction, at the last address that can be fetched. -/
theorem witness_step_decodes : (edge 0x0FFE).fault = 0 ∧ (edge 0x0FFE).pc.toNat + 1 ≤ 4095 ∧
    decode [Memory.read (edge 0x0FFE).mem (edge 0x0FFE).pc.toNat,
      Memory.read (edge 0x0FFE).mem ((edge 0x0FFE).pc.toNat + 1)] = .ok (.ldImm 0 0x12, []) :=
  ⟨by decide, by decide, rfl⟩

/-- FetchIsBigEndianAndGuarded, where its clauses meet. -/
theorem witness_fetch_clauses : (edge 0x0FFE).pc.toNat + 1 ≤ 4095 ∧ (edge 0x0FFF).pc.toNat + 1 > 4095 := by decide

/-- StepPastMemoryOnlyAdvances, at its first address and at the last one, where PC wraps. -/
theorem witness_past_memory : [edge 0x0FFF, edge 0xFFFF].all
    (fun s => decide (s.fault = 0 ∧ s.draw = false ∧ s.pc.toNat ≥ 0x0FFF)) = true := by decide

/-- FaultedStepChangesNothing. -/
theorem witness_faulted : faulted.fault ≠ 0 := by decide

/-- StepReportsChange, FaultCausesAreComplete, OnlyRndReadsTheDraw's and the other premises on FAULT and DRAW. -/
theorem witness_running : State.reset.fault = 0 ∧ State.reset.draw = false := by decide

/-- PlacedWordRunsNext; its placing moves PC where PC is outside MEM. -/
theorem witness_placed : Memory.wf (edge 0xFFFF).mem ∧ decodeTableWord 16 0xD12F = some (.drw 1 2 15) := by decide

/-- FaultsArePrecise. -/
theorem witness_precise : (State.reset.withFetchWord 16 0x00EE).fault = 0 ∧
    (State.reset.withFetchWord 16 0x00EE).draw = false ∧
    ∃ t, step (State.reset.withFetchWord 16 0x00EE) = .next t ∧ t.fault ≠ 0 := ⟨by decide, by decide, _, rfl, by decide⟩

/-- The fault that one step latches. -/
def latched (w : Nat) (s : State) : Option (BitVec 3) := (run w s).map (·.fault)

/-- FaultCausesAreComplete: the stack faults occur, and not one slot earlier. -/
theorem witness_stack_faults : latched 0x2ABC (State.reset.setSp 15) = some 1 ∧
    latched 0x2ABC (State.reset.setSp 14) = some 0 ∧ latched 0x00EE (State.reset.setSp 0) = some 2 ∧
    latched 0x00EE (State.reset.setSp 1) = some 0 := by decide

/-- FaultCausesAreComplete: MemoryBounds occurs for each instruction, and not one address lower (W13, W14, X22, X23,
X28, X29, X34, X35). -/
theorem witness_bounds_faults : latched 0xD01F (State.reset.setI 0x0FF2) = some 3 ∧
    latched 0xD01F (State.reset.setI 0x0FF1) = some 0 ∧ latched 0xD010 (State.reset.setI 0xFFFF) = some 0 ∧
    latched 0xF033 (State.reset.setI 0x0FFE) = some 3 ∧ latched 0xF033 (State.reset.setI 0x0FFD) = some 0 ∧
    latched 0xFF55 (State.reset.setI 0x0FF1) = some 3 ∧ latched 0xFF55 (State.reset.setI 0x0FF0) = some 0 ∧
    latched 0xF265 (State.reset.setI 0x0FFE) = some 3 ∧ latched 0xF165 (State.reset.setI 0x0FFE) = some 0 := by decide

/-- FaultCausesAreComplete: KeyIndex occurs, and not for the highest key. -/
theorem witness_key_faults : latched 0xE59E (State.reset.setV 5 16) = some 4 ∧
    latched 0xE59E (State.reset.setV 5 15) = some 0 ∧ latched 0xE5A1 (State.reset.setV 5 16) = some 4 ∧
    latched 0xE5A1 (State.reset.setV 5 15) = some 0 := by decide

/-- FaultIsSticky. -/
theorem witness_sticky : ∃ t, runOps [.tickTimers, .step, .setKey 3 true, .step] faulted = .next t ∧ t.keys[3] = true :=
  ⟨_, rfl, by decide⟩

theorem reset_inv : State.reset.inv := by
  unfold State.inv
  decide

/-- ResetMeetsInvariant and ResetSetsEveryPiece: any FONT will do, the default among them. -/
theorem witness_font : ∃ t, t = State.resetWith (Vector.replicate 80 0xA5) ∧ t ≠ State.resetWith defaultFont :=
  ⟨_, rfl, by decide⟩

/-- StepKeepsInvariant, from reset. -/
theorem witness_invariant_step : State.reset.inv ∧ ∃ t, step State.reset = .next t := ⟨reset_inv, _, rfl⟩

/-- StepKeepsInvariant and HostOperationsKeepInvariant, from a state with a fault, a return address at its greatest
value and a byte of MEM written. -/
theorem witness_invariant_used : (((withBytes 0xFFF [0x6A]).setSlot 15 0x1000).setFault 4).inv := by
  unfold State.inv
  decide

/-- HostOperationsKeepInvariant: a load that succeeds. -/
theorem witness_load_ok : ∃ t, loadProgram [0x6A, 0x12] State.reset = .ok t := ⟨_, rfl⟩

/-- ProtocolRunsComplete and FirstFetchReadsProgramStart: the longest image. -/
theorem witness_longest_image : [HostOp.tickTimers, .setKey 3 true].all HostOp.mayPrecedeLoad = true ∧
    (List.replicate 3584 (0xFF : Byte)).length ≤ 3584 := ⟨by decide, by rw [List.length_replicate]⟩

/-- ProtocolRunsComplete and FirstFetchReadsProgramStart: the shortest images. -/
theorem witness_short_images : ([] : List Byte).length ≤ 3584 ∧ [(0x6A : Byte)].length ≤ 3584 := by decide

/-- LoadWritesProgramArea, on both sides of the greatest length. -/
theorem witness_load_lengths : Memory.wf State.reset.mem ∧ (List.replicate 3585 (0xFF : Byte)).length > 3584 ∧
    (List.replicate 3584 (0xFF : Byte)).length ≤ 3584 :=
  ⟨by decide, by rw [List.length_replicate]; decide, by rw [List.length_replicate]⟩

/-- SetKeySetsOneEntry. -/
theorem witness_other_key : (0 : Fin 16) ≠ 15 := by decide

/-- Whether an instruction completes and then some part differs. -/
def differs {α : Type} [DecidableEq α] (i : Instr) (s : State) (part : State → α) : Bool :=
  match exec i s with
  | .next t => decide (part t ≠ part s)
  | .fault _ | .refused _ => false

/-- OnlyOwnersWrite: each piece of state has an instruction that changes it. -/
theorem witness_owners :
    differs (.ldDtVx 0) (State.reset.setV 0 5) (·.dt) = true ∧ differs (.ldStVx 0) (State.reset.setV 0 5) (·.st) = true ∧
    differs (.call 0) State.reset (·.stack) = true ∧ differs (.call 0) State.reset (·.sp) = true ∧
    differs .ret (State.reset.setSp 1) (·.sp) = true ∧ differs (.ldI 5) State.reset (·.i) = true ∧
    differs (.addI 0) (State.reset.setV 0 5) (·.i) = true ∧ differs (.ldF 0) (State.reset.setV 0 5) (·.i) = true ∧
    differs (.storeRegs 0) State.reset (·.i) = true ∧ differs (.loadRegs 0) State.reset (·.i) = true ∧
    differs (.ldB 0) State.reset (·.mem) = true ∧ differs (.storeRegs 0) State.reset (·.mem) = true ∧
    differs .cls State.reset (·.draw) = true ∧ differs .cls (State.reset.setFb (screen [(0, 0)])) (·.fb) = true ∧
    differs (.drw 0 0 1) State.reset (·.fb) = true ∧ differs (.rnd 0 0) State.reset (·.draws) = true := by decide

/-- OnlyOwnersWrite: each instruction that the clause on FAULT names can change it. -/
theorem witness_fault_writers :
    [(.ret, State.reset), (.call 0, State.reset.setSp 15), (.drw 0 1 1, State.reset.setI 0x1000),
      (.ldB 0, State.reset.setI 0x1000), (.storeRegs 0, State.reset.setI 0x1000), (.loadRegs 0, State.reset.setI 0x1000),
      (.skp 0, State.reset.setV 0 16), (.sknp 0, State.reset.setV 0 16)].all
      (fun p => differs p.1 p.2 (·.fault)) = true := by decide

/-- OnlyOwnersWrite: each destination that the clause on V names can change (Cxkk is in witness_vf_rnd). -/
theorem witness_v_writers :
    [.ldImm 0 1, .addImm 0 1, .ldReg 0 1, .orReg 0 1, .andReg 0 1, .xorReg 0 1, .addReg 0 1, .subReg 0 1, .shr 0 1,
      .subnReg 0 1, .shl 0 1, .ldVxDt 0, .ldVxK 0, .loadRegs 15].all
      (fun i => differs i (((State.reset.setV 0 0x55).setV 1 0x0F).setKeyAt 7 true) (fun t => t.v[0])) = true := by decide

/-- VfHasOnlyTheseWriters: each writer that the statement names can change VF, but for Cxkk, next. -/
theorem witness_vf_writers :
    [.orReg 0 1, .andReg 0 1, .xorReg 0 1, .addReg 0 1, .subReg 0 1, .shr 0 1, .subnReg 0 1, .shl 0 1, .drw 0 1 0,
      .ldReg regF 0, .ldImm regF 1, .addImm regF 1, .ldVxDt regF, .ldVxK regF, .loadRegs regF].all
      (fun i => differs i ((State.reset.setV 15 0x55).setKeyAt 7 true) (fun t => t.v[15])) = true := by decide

/-- VfHasOnlyTheseWriters: CFkk, whatever is drawn. -/
theorem witness_vf_rnd : ∃ t, exec (.rnd regF 0x00) (State.reset.setV 15 0x55) = .next t ∧
    t.v[regF] ≠ (State.reset.setV 15 0x55).v[regF] := by
  refine ⟨_, rfl, ?_⟩
  have h : Config.rnd 0 &&& 0x00#8 = 0x00#8 := BitVec.and_zero
  simp [advance, State.setV, State.countDraw, State.setPc, State.reset, h]

/-- PcAdvancesByTwoExcept: each case of it. -/
theorem witness_pc_cases :
    [(.jp 0x300, State.reset), (.call 0x300, State.reset), (.jpV0 0x300, State.reset),
      (.ret, (State.reset.setSp 1).setSlot 1 0x300), (.seImm 0 0, State.reset), (.sneImm 0 1, State.reset),
      (.seReg 0 1, State.reset), (.sneReg 0 1, State.reset.setV 0 1), (.skp 0, State.reset.setKeyAt 0 true),
      (.sknp 0, State.reset), (.ldVxK 0, State.reset), (.ret, State.reset)].all
      (fun p => match exec p.1 p.2 with
        | .next t => decide (t.pc ≠ p.2.pc + 2)
        | .fault _ | .refused _ => false) = true := by decide

/-- OnlyRndReadsTheDraw. -/
theorem witness_not_rnd : (∀ x kk, Instr.drw 0 1 5 ≠ .rnd x kk) ∧ ∃ t, exec (.drw 0 1 5) State.reset = .next t :=
  ⟨by simp, _, rfl⟩

/-- CanonicalMemoriesAreEqual: one memory written in two orders. -/
theorem witness_same_reads :
    Memory.wf (Memory.write (Memory.write [] 0x300 1) 0x200 2) ∧
    Memory.wf (Memory.write (Memory.write [] 0x200 2) 0x300 1) ∧
    ∀ a, Memory.read (Memory.write (Memory.write [] 0x300 1) 0x200 2) a =
      Memory.read (Memory.write (Memory.write [] 0x200 2) 0x300 1) a := ⟨by decide, by decide, fun _ => rfl⟩

/-- JumpToSelfIsStable. -/
theorem witness_at_end : (State.reset.withFetchWord 16 0x1200).atEnd ∧ (State.reset.withFetchWord 16 0x1200).draw = false :=
  ⟨⟨by decide, 0x200, by decide, by decide⟩, by decide⟩

/-- RetPopsOrUnderflows and CallPushesOrOverflows: the ends of SP's range and the slots beside them. -/
theorem witness_sp : State.reset.sp = 0 ∧ (State.reset.setSp 1).sp ≠ 0 ∧ (State.reset.setSp 15).sp ≠ 0 ∧
    (State.reset.setSp 15).sp = 15 ∧ (State.reset.setSp 14).sp ≠ 15 ∧ State.reset.sp ≠ 15 := by decide

/-- CallThenRetReturns: the deepest call, and slots on both sides of the one that it writes. -/
theorem witness_call_ret : (State.reset.setSp 14).sp ≠ 15 ∧ (14 : Fin 16).val ≠ (State.reset.setSp 14).sp.val + 1 ∧
    State.reset.sp ≠ 15 ∧ (2 : Fin 16).val ≠ State.reset.sp.val + 1 := by decide

/-- KeySkipsTestLatch, where its clauses meet. -/
theorem witness_key_clauses : (State.reset.setV 5 16).v[(5 : Reg)].toNat > 15 ∧
    (State.reset.setV 5 15).v[(5 : Reg)].toNat = (15 : Fin 16).val := by decide

/-- The premises on register numbers: a destination that is not VF, VF as destination, and a third register. -/
theorem witness_registers : (14 : Reg) ≠ regF ∧ (0 : Reg) ≠ 14 ∧ (0 : Reg) ≠ regF := by decide

/-- RndMasksTheDraw: a bit that the mask clears. -/
theorem witness_mask_bit : 7 < 8 ∧ (0x7F : Byte).getLsbD 7 = false := by decide

/-- BcdStoresThreeDigits, where its clauses meet. -/
theorem witness_bcd : Memory.wf State.reset.mem ∧ (State.reset.setI 0x0FFE).i.toNat + 2 > 4095 ∧
    (State.reset.setI 0x0FFD).i.toNat + 2 ≤ 4095 := by decide

/-- StoreRegsWritesV0ToVx, LoadRegsReadsV0ToVx and StoreThenLoadRestoresRegisters, where their clauses meet. -/
theorem witness_registers_bounds : (State.reset.setI 0x0FF1).i.toNat + (15 : Reg).val > 4095 ∧
    (State.reset.setI 0x0FF0).i.toNat + (15 : Reg).val ≤ 4095 ∧ (State.reset.setI 0x1000).i.toNat + (0 : Reg).val > 4095 ∧
    (State.reset.setI 0x0FFF).i.toNat + (0 : Reg).val ≤ 4095 := by decide

/-- The same statements: a register moved and one not moved. -/
theorem witness_moved : (2 : Reg) ≤ 2 ∧ (2 : Reg) < 3 := by decide

/-- StoredBytesAreFetchedNext, as in program P7. -/
theorem witness_self_modifying : (0 : Reg) < 1 ∧
    Memory.wf ((State.reset.setPc 0x0206).setI 0x0208).mem ∧
    ((State.reset.setPc 0x0206).setI 0x0208).i.toNat + (1 : Reg).val ≤ 4095 ∧
    (((State.reset.setPc 0x0206).setI 0x0208).pc + 2).toNat =
      ((State.reset.setPc 0x0206).setI 0x0208).i.toNat + (0 : Reg).val := by decide

/-- DrawXorsEveryPixel, where its clauses meet, and n = 0 (W3, W12, W11). -/
theorem witness_draw_clauses :
    ((2 : Fin 16).val ≥ 1 ∧ (State.reset.setI 0x0FFF).i.toNat + ((2 : Fin 16).val - 1) > 4095) ∧
    (State.reset.setI 0x0FFF).i.toNat + ((1 : Fin 16).val - 1) ≤ 4095 ∧ (0 : Fin 16).val = 0 := by decide

/-- DrawTwiceRestores (program P3). -/
theorem witness_draw_twice : (3 : Reg) ≠ regF ∧ (4 : Reg) ≠ regF ∧
    (State.reset.setI 0x0019).i.toNat + ((5 : Fin 16).val - 1) ≤ 4095 := by decide

/-- KeyWaitTakesLeastKey, both clauses; the second at the highest key. -/
theorem witness_key_wait : (∀ k : Fin 16, State.reset.keys[k] = false) ∧
    (State.reset.setKeyAt 15 true).keys[(15 : Fin 16)] = true ∧
    ∀ j : Fin 16, j < 15 → (State.reset.setKeyAt 15 true).keys[j] = false := by decide

end Sys2Proof.Tests
end

/-! ### The owners of each piece of state (spec/10_state.md R10 to R21) -/

namespace Sys2Proof.Machine

/-- The parts of the state other than V and PC that an instruction may write: the tables of 10_state.md read by
instruction, a fault counted as a write of FAULT (60_exceptions.md R156). -/
def writes : Instr → Parts
  | .cls => { fb := true, draw := true }
  | .ret => { sp := true, fault := true }
  | .call _ => { sp := true, stack := true, fault := true }
  | .ldI _ | .addI _ | .ldF _ => { i := true }
  | .rnd _ _ => { draws := true }
  | .drw _ _ _ => { fb := true, draw := true, fault := true }
  | .skp _ | .sknp _ => { fault := true }
  | .ldDtVx _ => { dt := true }
  | .ldStVx _ => { st := true }
  | .ldB _ => { mem := true, fault := true }
  | .storeRegs _ => { i := true, mem := true, fault := true }
  | .loadRegs _ => { i := true, fault := true }
  | _ => {}

/-- The V registers that an instruction may write: its destination, and VF where it produces a flag (R10, R11). -/
def writesReg : Instr → Reg → Prop
  | .ldImm x _, r | .addImm x _, r | .ldReg x _, r | .rnd x _, r | .ldVxDt x, r | .ldVxK x, r => r = x
  | .orReg x _, r | .andReg x _, r | .xorReg x _, r | .addReg x _, r | .subReg x _, r | .shr x _, r
  | .subnReg x _, r | .shl x _, r => r = x ∨ r = regF
  | .drw _ _ _, r => r = regF
  | .loadRegs x, r => r ≤ x
  | _, _ => False

/-- Every part of the state other than PC that differs between `s` and `t` is one that `ins` may write; KEYS, which
no instruction writes (R20), is the same. -/
structure ChangesOnlyOwned (ins : Instr) (s t : State) : Prop where
  v : ∀ r : Reg, t.v[r] ≠ s.v[r] → writesReg ins r
  i : t.i ≠ s.i → (writes ins).i = true
  sp : t.sp ≠ s.sp → (writes ins).sp = true
  stack : t.stack ≠ s.stack → (writes ins).stack = true
  dt : t.dt ≠ s.dt → (writes ins).dt = true
  st : t.st ≠ s.st → (writes ins).st = true
  mem : t.mem ≠ s.mem → (writes ins).mem = true
  fb : t.fb ≠ s.fb → (writes ins).fb = true
  draw : t.draw ≠ s.draw → (writes ins).draw = true
  keys : t.keys = s.keys
  fault : t.fault ≠ s.fault → (writes ins).fault = true
  draws : t.draws ≠ s.draws → (writes ins).draws = true

/-! ### One rule for each shape of an instruction's meaning -/

section
variable {i : Instr} {s t effect : State}

/-- An instruction that cannot fault: its next state is its effect. -/
theorem ChangesOnlyOwned.of_next (he : ChangesOnlyOwned i s effect)
    (h : (.next effect : Host.Outcome State Fault Refusal) = .next t) : ChangesOnlyOwned i s t := by
  cases h
  exact he

/-- An instruction that can fault: fault entry writes FAULT alone (60_exceptions.md R151). -/
theorem ChangesOnlyOwned.of_guarded {check : Option Cause} (hf : (writes i).fault = true)
    (he : ChangesOnlyOwned i s effect) (h : guarded check s effect = .next t) : ChangesOnlyOwned i s t := by
  obtain ⟨c, -, hg⟩ | ⟨-, hg⟩ := guarded_cases check s effect
  · cases hg.symm.trans h
    constructor <;> simp [hf]
  · exact he.of_next (hg.symm.trans h)

/-- A write of an owned register changes no register but that one. -/
theorem writesReg_of_setV_changed {x : Reg} {b : Byte} (hx : writesReg i x) (r : Reg)
    (hr : (s.setV x b).v[r] ≠ s.v[r]) : writesReg i r := by
  rw [getElem_setV] at hr
  split at hr
  · next hrx => exact hrx ▸ hx
  · exact absurd rfl hr

/-- One register written, then PC moved on. -/
theorem ChangesOnlyOwned.of_setV {x : Reg} {b : Byte} (hx : writesReg i x) :
    ChangesOnlyOwned i s (advance (s.setV x b)) := by
  constructor
  case v => exact writesReg_of_setV_changed hx
  all_goals simp

/-- A result and a flag written, then PC moved on. -/
theorem ChangesOnlyOwned.of_resultFlag {x : Reg} {b : Byte} {c : Bool} (hx : writesReg i x)
    (hF : writesReg i regF) : ChangesOnlyOwned i s (advance (writeResultFlag s x b c)) := by
  constructor
  case v =>
    intro r hr
    rw [advance_eq, State.setPc_v, getElem_writeResultFlag] at hr
    split at hr
    · next hrF => exact hrF ▸ hF
    · split at hr
      · next hrx => exact hrx ▸ hx
      · exact absurd rfl hr
  all_goals simp [writeResultFlag]

end

/-- A load of V0 to Vx leaves the registers above x (44_memory_index.md R126). -/
theorem getElem_loadedRegs_of_lt (v : Vector Byte 16) (m : Memory) (base : Nat) {x r : Reg} (h : x < r) :
    (loadedRegs v m base x)[r] = v[r] := by
  simp [loadedRegs, Fin.not_le.2 h]

/-- The whole frame of `exec`: an instruction changes only what the tables `writes` and `writesReg` give it. -/
theorem exec_changesOnlyOwned {i : Instr} {s t : State} (h : exec i s = .next t) : ChangesOnlyOwned i s t := by
  cases i with
  | sys | jp | seImm | sneImm | seReg | sneReg | jpV0 | unmatched =>
    exact .of_next (by constructor <;> simp [skipIf]) h
  | cls | ldI | addI | ldF | ldDtVx | ldStVx => exact .of_next (by constructor <;> simp [writes]) h
  | ldImm | addImm | ldReg | ldVxDt => exact .of_next (.of_setV rfl) h
  | orReg | andReg | xorReg | addReg | subReg | shr | subnReg | shl =>
    exact .of_next (.of_resultFlag (.inl rfl) (.inr rfl)) h
  | rnd x kk =>
    refine .of_next ?_ h
    constructor
    case v => exact writesReg_of_setV_changed (i := .rnd x kk) rfl
    all_goals simp [writes]
  | ldVxK x =>
    simp only [exec, execLdVxK] at h
    split at h
    · exact .of_next (.of_setV rfl) h
    · exact .of_next (by constructor <;> simp) h
  | ret | call | skp | sknp | ldB | storeRegs =>
    exact .of_guarded rfl (by constructor <;> simp [writes, push, pop, skipIf]) h
  | drw x y n =>
    refine .of_guarded rfl ?_ h
    constructor
    case v => exact writesReg_of_setV_changed (i := .drw x y n) rfl
    all_goals simp [writes]
  | loadRegs x =>
    refine .of_guarded rfl ?_ h
    constructor
    case v =>
      intro r hr
      refine Fin.not_lt.1 fun hlt => hr ?_
      exact getElem_loadedRegs_of_lt s.v s.mem (baseAddr s) hlt
    all_goals simp [writes]

/-! ### The table read by piece of state -/

section
variable {i : Instr}

theorem writes_i_iff : (writes i).i = true ↔
    (∃ nnn, i = .ldI nnn) ∨ ∃ x, i = .addI x ∨ i = .ldF x ∨ i = .storeRegs x ∨ i = .loadRegs x := by
  cases i <;> simp [writes]

theorem writes_sp_iff : (writes i).sp = true ↔ i = .ret ∨ ∃ nnn, i = .call nnn := by
  cases i <;> simp [writes]

theorem writes_stack_iff : (writes i).stack = true ↔ ∃ nnn, i = .call nnn := by
  cases i <;> simp [writes]

theorem writes_dt_iff : (writes i).dt = true ↔ ∃ x, i = .ldDtVx x := by
  cases i <;> simp [writes]

theorem writes_st_iff : (writes i).st = true ↔ ∃ x, i = .ldStVx x := by
  cases i <;> simp [writes]

theorem writes_mem_iff : (writes i).mem = true ↔ ∃ x, i = .ldB x ∨ i = .storeRegs x := by
  cases i <;> simp [writes]

theorem writes_fb_iff : (writes i).fb = true ↔ i = .cls ∨ ∃ x y n, i = .drw x y n := by
  cases i <;> simp [writes]

theorem writes_draw_iff : (writes i).draw = true ↔ i = .cls ∨ ∃ x y n, i = .drw x y n := by
  cases i <;> simp [writes]

theorem writes_draws_iff : (writes i).draws = true ↔ ∃ x kk, i = .rnd x kk := by
  cases i <;> simp [writes]

theorem writes_fault_iff : (writes i).fault = true ↔
    i = .ret ∨ (∃ nnn, i = .call nnn) ∨ (∃ x y n, i = .drw x y n) ∨
      ∃ x, i = .ldB x ∨ i = .storeRegs x ∨ i = .loadRegs x ∨ i = .skp x ∨ i = .sknp x := by
  cases i <;> simp [writes]

theorem writesReg_iff {r : Reg} : writesReg i r ↔
    (∃ kk, i = .ldImm r kk ∨ i = .addImm r kk ∨ i = .rnd r kk) ∨
    (∃ y, i = .ldReg r y ∨ i = .orReg r y ∨ i = .andReg r y ∨ i = .xorReg r y ∨ i = .addReg r y ∨
      i = .subReg r y ∨ i = .shr r y ∨ i = .subnReg r y ∨ i = .shl r y) ∨
    i = .ldVxDt r ∨ i = .ldVxK r ∨ (∃ x, r ≤ x ∧ i = .loadRegs x) ∨
    (r = regF ∧ ∃ x y, i = .orReg x y ∨ i = .andReg x y ∨ i = .xorReg x y ∨ i = .addReg x y ∨ i = .subReg x y ∨
      i = .shr x y ∨ i = .subnReg x y ∨ i = .shl x y ∨ ∃ n, i = .drw x y n) := by
  cases i <;> simp [writesReg, eq_comm]

/-- The writers of VF (10_state.md R11): a load of V0 to Vx reaches VF only when x = F. -/
theorem writesReg_regF_iff : writesReg i regF ↔
    (∃ x y, i = .orReg x y ∨ i = .andReg x y ∨ i = .xorReg x y ∨ i = .addReg x y ∨ i = .subReg x y ∨
      i = .shr x y ∨ i = .subnReg x y ∨ i = .shl x y ∨ (∃ n, i = .drw x y n)) ∨
    (∃ y, i = .ldReg regF y) ∨ (∃ kk, i = .ldImm regF kk ∨ i = .addImm regF kk ∨ i = .rnd regF kk) ∨
    i = .ldVxDt regF ∨ i = .ldVxK regF ∨ i = .loadRegs regF := by
  have hlast (x : Reg) : regF ≤ x ↔ x = regF := Fin.last_le_iff
  cases i <;> simp [writesReg, eq_comm, hlast]

end

/-- Settles O26: what changes is owned, and the table names the owners. -/
theorem onlyOwnersWrite : Obligations.OnlyOwnersWrite := by
  intro i s t h
  have own := exec_changesOnlyOwned h
  exact ⟨own.keys, fun hdt => writes_dt_iff.1 (own.dt hdt), fun hst => writes_st_iff.1 (own.st hst),
    fun hstack => writes_stack_iff.1 (own.stack hstack), fun hsp => writes_sp_iff.1 (own.sp hsp),
    fun hi => writes_i_iff.1 (own.i hi), fun hmem => writes_mem_iff.1 (own.mem hmem),
    fun hscreen => hscreen.elim (fun hfb => writes_fb_iff.1 (own.fb hfb))
      fun hdraw => writes_draw_iff.1 (own.draw hdraw),
    fun hdraws => writes_draws_iff.1 (own.draws hdraws), fun hfault => writes_fault_iff.1 (own.fault hfault),
    fun r hr => writesReg_iff.1 (own.v r hr)⟩

/-- Settles O27: the owners of VF, read from the same table. -/
theorem vfHasOnlyTheseWriters : Obligations.VfHasOnlyTheseWriters := by
  intro i s t h hvf
  exact writesReg_regF_iff.1 ((exec_changesOnlyOwned h).v regF hvf)

/-! ### Reset and the invariant (10_state.md R23) -/

/-- Only MEM depends on the font; every other part has the value of R23's table. -/
theorem State.inv_resetWith (font : Font) : (State.resetWith font).inv := by
  have hfault : State.reset.fault.toNat ≤ 4 := by decide
  have hslot : State.reset.stack[0] = 0 := by decide
  have hslots : ∀ k : Fin 16, State.reset.stack[k].toNat ≤ 0x1000 := by decide
  have hdraw : State.reset.draw = false := rfl
  exact ⟨Memory.wf_resetWith font, hfault, hslot, hslots, hdraw⟩

/-- Settles O18: `State.reset` is the reset for the default font. -/
theorem resetMeetsInvariant : Obligations.ResetMeetsInvariant :=
  ⟨State.resetWith_defaultFont ▸ State.inv_resetWith defaultFont, State.inv_resetWith⟩

end Sys2Proof.Machine

namespace Sys2Proof.Machine

/-! ### Memory in canonical form (20_memory.md R30) -/

/-- A memory in canonical form lists a cell exactly when its address reads as that byte and the reset contents
differ there. -/
theorem Memory.mem_iff_read {m : Memory} (hm : Memory.wf m) (c : Host.Cell) :
    c ∈ m ↔ Memory.read m c.1 = c.2 ∧ c.2 ≠ background c.1 := by
  obtain ⟨hrise, hcells⟩ := hm
  induction m with
  | nil => simp [eq_comm]
  | cons d m ih =>
    obtain ⟨hd, hrise⟩ := List.pairwise_cons.1 hrise
    have ih := ih hrise fun e he => hcells e (List.mem_cons_of_mem d he)
    have hd_listed : d.2 ≠ background d.1 := (hcells d List.mem_cons_self).2
    rw [List.mem_cons]
    by_cases ha : c.1 = d.1
    · have hnot : c ∉ m := fun hc => Nat.ne_of_lt (hd c hc) ha.symm
      simp only [hnot, or_false, Memory.read, Prod.ext_iff, ha, true_and]
      exact ⟨fun h => ⟨h.symm, h ▸ hd_listed⟩, fun h => h.1.symm⟩
    · have hne : c ≠ d := fun h => ha (congrArg Prod.fst h)
      simp only [hne, false_or, Memory.read, if_neg ha, ih]

/-- Settles O30: the two lists have the same cells, and both rise strictly. -/
theorem canonicalMemoriesAreEqual : Obligations.CanonicalMemoriesAreEqual := by
  intro m m' hm hm' hread
  have hcells (c : Host.Cell) : c ∈ m ↔ c ∈ m' := by
    rw [Memory.mem_iff_read hm, Memory.mem_iff_read hm', hread]
  have hirrefl : Std.Irrefl fun p q : Host.Cell => p.1 < q.1 := ⟨fun p => Nat.lt_irrefl p.1⟩
  have hantisymm : Std.Antisymm fun p q : Host.Cell => p.1 < q.1 :=
    ⟨fun _ _ h h' => absurd h (Nat.lt_asymm h')⟩
  exact hm.1.eq_of_mem_iff hm'.1 hcells

/-! ### Fetch and step (20_memory.md R33, 30_encoding.md R60) -/

/-- Two bytes as a word: the first is the high one (R32). -/
theorem toNat_append_bytes (hi lo : Byte) : (hi ++ lo : Word).toNat = 256 * hi.toNat + lo.toNat := by
  rw [BitVec.toNat_append, ← Nat.shiftLeft_add_eq_or_of_lt lo.isLt, Nat.shiftLeft_eq]
  omega

/-- A fetch whose PC is known as a number inside MEM. -/
theorem fetch_of_pc_eq {s : State} {a : Nat} (hpc : s.pc.toNat = a) (ha : a + 1 < Config.memSize) :
    fetch s = Memory.read s.mem a ++ Memory.read s.mem (a + 1) := by
  subst hpc
  exact fetch_of_inside ha

/-- The neutral opcode is a SYS (40_control_flow.md R71). -/
theorem decodeWord_zero : decodeWord 0x0000 = .sys 0 := by decide

/-- With PC or PC + 1 outside MEM the instruction executed is the no-op. -/
theorem fetchExecute_of_outside {s : State} (h : Config.memSize ≤ s.pc.toNat + 1) :
    fetchExecute s = .next (advance s) := by
  rw [fetchExecute, fetch_of_outside h, decodeWord_zero, exec, execSys]

/-- With no fault latched a step fetches, executes and clears DRAW. -/
theorem step_of_running {s : State} (h : s.running) : step s = clearDraw (fetchExecute s) :=
  if_neg (not_not_intro h)

/-- While a fault is latched a step changes nothing (60_exceptions.md R152). -/
theorem step_of_faulted {s : State} (h : s.fault ≠ 0) : step s = .next s := if_pos h

/-- A step that answers `t` executed an instruction whose next state is `t` before DRAW is cleared, or found a
fault latched. -/
theorem step_cases {s t : State} (h : step s = .next t) :
    t = s ∧ s.fault ≠ 0 ∨
      s.running ∧ ∃ u, exec (decodeWord (fetch s)) s = .next u ∧ t = u.setDraw false := by
  by_cases hf : s.fault = 0
  · rw [step_of_running hf, fetchExecute] at h
    refine .inr ⟨hf, ?_⟩
    cases hu : exec (decodeWord (fetch s)) s with
    | next u =>
      rw [hu] at h
      cases h
      exact ⟨u, rfl, rfl⟩
    | fault r => cases r
    | refused r =>
      rw [hu] at h
      cases h
  · rw [step_of_faulted hf] at h
    cases h
    exact .inl ⟨rfl, hf⟩

/-- Settles O8: each side of the fetch guard, by the lemma about it. -/
theorem fetchIsBigEndianAndGuarded : Obligations.FetchIsBigEndianAndGuarded := by
  intro s
  refine ⟨fun hin => ?_, fun hout => ?_⟩
  · rw [fetch_of_inside (Nat.lt_succ_of_le hin), toNat_append_bytes]
  · have hfetch : fetch s = 0x0000 := fetch_of_outside hout
    exact ⟨hfetch, hfetch ▸ decodeWord_zero, fetchExecute_of_outside hout⟩

/-- Settles O9: the no-op executes, and DRAW was 0 already. -/
theorem stepPastMemoryOnlyAdvances : Obligations.StepPastMemoryOnlyAdvances := by
  intro s hfault hdraw hpc
  have hstep : step s = .next ((advance s).setDraw false) := by
    rw [step_of_running hfault, fetchExecute_of_outside (Nat.succ_le_succ hpc), clearDraw]
  have hwrap : BitVec.ofNat 16 ((s.pc.toNat + 2) % 65536) = s.pc + 2 := by
    apply BitVec.eq_of_toNat_eq
    simp
  rw [hstep, hwrap, advance_eq, State.setPc, State.setDraw, ← hdraw]

/-! ### What an instruction does to each part of the invariant -/

section
variable {i : Instr} {s t : State}

/-- A guarded instruction whose effect leaves FAULT alone keeps FAULT a code that exists. -/
theorem fault_le_of_guarded {check : Option Cause} {effect : State} (hs : s.fault.toNat ≤ 4)
    (h : guarded check s effect = .next t) (he : effect.fault = s.fault) : t.fault.toNat ≤ 4 := by
  obtain ⟨c, -, hg⟩ | ⟨-, hg⟩ := guarded_cases check s effect
  · cases hg.symm.trans h
    exact causeCode_le c
  · cases hg.symm.trans h
    exact he ▸ hs

/-- FAULT stays a code that exists (10_state.md R21). -/
theorem exec_keeps_fault_le (hs : s.fault.toNat ≤ 4) (h : exec i s = .next t) : t.fault.toNat ≤ 4 := by
  by_cases hf : t.fault = s.fault
  · exact hf ▸ hs
  · obtain rfl | ⟨_, rfl⟩ | ⟨_, _, _, rfl⟩ | ⟨_, rfl | rfl | rfl | rfl | rfl⟩ :=
      writes_fault_iff.1 ((exec_changesOnlyOwned h).fault hf)
    all_goals exact fault_le_of_guarded hs h rfl

/-- A guarded store of as many bytes as its check counts keeps MEM in canonical form. -/
theorem wf_of_guarded_store {base : Nat} {bs : List Byte} {effect : State} (hs : Memory.wf s.mem)
    (h : guarded (boundsCheck base bs.length) s effect = .next t)
    (he : effect.mem = Memory.writeBytes s.mem base bs) : Memory.wf t.mem := by
  obtain ⟨c, -, hg⟩ | ⟨hc, hg⟩ := guarded_cases (boundsCheck base bs.length) s effect
  · cases hg.symm.trans h
    exact hs
  · cases hg.symm.trans h
    rw [he]
    obtain hnil | hin := boundsCheck_eq_none.1 hc
    · rwa [List.eq_nil_of_length_eq_zero hnil]
    · exact Memory.wf_writeBytes hs hin

/-- Fx55 stores x + 1 bytes. -/
theorem length_regBytes (v : Vector Byte 16) (x : Reg) : (regBytes v x).length = x.val + 1 := by
  simp only [regBytes, List.length_take, Vector.length_toList]
  omega

/-- MEM stays in canonical form (20_memory.md R30): only Fx33 and Fx55 store, and only inside MEM. -/
theorem exec_keeps_memory_wf (hs : Memory.wf s.mem) (h : exec i s = .next t) : Memory.wf t.mem := by
  by_cases hm : t.mem = s.mem
  · exact hm ▸ hs
  · obtain ⟨x, rfl | rfl⟩ := writes_mem_iff.1 ((exec_changesOnlyOwned h).mem hm)
    · exact wf_of_guarded_store (bs := bcdDigits (regOperand s x)) hs h rfl
    · rw [exec, execStoreRegs, ← length_regBytes s.v x] at h
      exact wf_of_guarded_store hs h rfl

/-- What an instruction leaves in a stack slot: what was there, or the return address of a CALL, which never goes
to slot 0 (40_control_flow.md R74). -/
theorem exec_slot_cases (h : exec i s = .next t) (k : Fin 16) :
    t.stack[k] = s.stack[k] ∨ k ≠ 0 ∧ (∃ nnn, i = .call nnn) ∧ t.stack[k] = s.pc + 2 := by
  by_cases hst : t.stack = s.stack
  · exact .inl (by rw [hst])
  obtain ⟨nnn, rfl⟩ := writes_stack_iff.1 ((exec_changesOnlyOwned h).stack hst)
  obtain ⟨c, -, hg⟩ | ⟨hc, hg⟩ := guarded_cases (if s.sp = 15 then some (.stackOverflow s.pc) else none) s
    ((push (s.pc + 2) s).setPc (addrOperand nnn))
  · cases hg.symm.trans h
    exact absurd rfl hst
  · cases hg.symm.trans h
    have hsp : s.sp ≠ 15 := by simpa using hc
    simp only [State.setPc_stack, getElem_push]
    split
    · next hk =>
      refine .inr ⟨fun hzero => hsp ?_, ⟨nnn, rfl⟩, rfl⟩
      exact eq_neg_of_add_eq_zero_left (hk.symm.trans hzero)
    · exact .inl rfl

end

/-- A CALL is only ever fetched inside MEM: outside, the fetch guard yields the no-op. -/
theorem pc_inside_of_fetch_call {s : State} {nnn : Imm12} (h : decodeWord (fetch s) = .call nnn) :
    s.pc.toNat + 1 < Config.memSize := by
  by_contra hout
  rw [fetch_of_outside (Nat.not_lt.1 hout), decodeWord_zero] at h
  cases h

/-- The return address that a fetched CALL pushes is at most 0x1000. -/
theorem toNat_pc_add_two_le_of_fetch_call {s : State} {nnn : Imm12} (h : decodeWord (fetch s) = .call nnn) :
    (s.pc + 2).toNat ≤ 0x1000 := by
  have hpc : s.pc.toNat + 1 < 4096 := pc_inside_of_fetch_call h
  bv_omega

/-- Settles O17: each part of the invariant by what an instruction may do to it; the cleared DRAW is the step's. -/
theorem stepKeepsInvariant : Obligations.StepKeepsInvariant := by
  intro s t hinv hstep
  obtain ⟨rfl, -⟩ | ⟨-, u, hu, rfl⟩ := step_cases hstep
  · exact hinv
  obtain ⟨hmem, hfault, hslot0, hslots, -⟩ := hinv
  have hmem' : Memory.wf u.mem := exec_keeps_memory_wf hmem hu
  have hfault' : u.fault.toNat ≤ 4 := exec_keeps_fault_le hfault hu
  have hslot0' : u.stack[0] = 0 := by
    obtain hkept | ⟨hne, -⟩ := exec_slot_cases hu 0
    · exact hkept.trans hslot0
    · exact absurd rfl hne
  have hslots' (k : Fin 16) : u.stack[k].toNat ≤ 0x1000 := by
    obtain hkept | ⟨-, ⟨nnn, hcall⟩, hpushed⟩ := exec_slot_cases hu k
    · exact hkept ▸ hslots k
    · exact hpushed ▸ toNat_pc_add_two_le_of_fetch_call hcall
  exact ⟨hmem', hfault', hslot0', hslots', rfl⟩

/-! ### Stored bytes fetched (20_memory.md R40) -/

/-- The k-th byte that Fx55 stores is Vk (44_memory_index.md R125). -/
theorem getD_regBytes (v : Vector Byte 16) {x : Reg} {k : Nat} (hk : k ≤ x.val) :
    (regBytes v x).getD k 0 = v[k]'(Nat.lt_of_le_of_lt hk x.isLt) := by
  have h16 : k < v.toList.length := by simpa using Nat.lt_of_le_of_lt hk x.isLt
  rw [regBytes, List.getD_eq_getElem?_getD, List.getElem?_take_of_lt (Nat.lt_succ_of_le hk),
    List.getElem?_eq_getElem h16, Option.getD_some, Vector.getElem_toList]

/-- Fx55 inside MEM: the store, then I, then PC. -/
theorem exec_storeRegs_of_inside {x : Reg} {s : State} (h : s.i.toNat + x.val ≤ 4095) :
    exec (.storeRegs x) s =
      .next (advance ((s.setMem (Memory.writeBytes s.mem (baseAddr s) (regBytes s.v x))).setI (bumpedI s x))) := by
  have hc : boundsCheck (baseAddr s) (x.val + 1) = none := boundsCheck_eq_none.2 (.inr (Nat.succ_le_succ h))
  rw [exec, execStoreRegs, hc, guarded_none]

/-- After the store of V0 to Vx from `base`, the address `base + k` reads Vk. -/
theorem Memory.read_store_regBytes {m : Memory} (hm : Memory.wf m) (base : Nat) (v : Vector Byte 16) {x : Reg}
    {k : Nat} (hk : k ≤ x.val) :
    Memory.read (Memory.writeBytes m base (regBytes v x)) (base + k) =
      v[k]'(Nat.lt_of_le_of_lt hk x.isLt) := by
  rw [Memory.read_writeBytes hm.1, length_regBytes, if_pos (by omega), Nat.add_sub_cancel_left,
    getD_regBytes v hk]

/-- Settles O51: the next fetch reads two addresses at which Fx55 stored Vj and V(j+1). -/
theorem storedBytesAreFetchedNext : Obligations.StoredBytesAreFetchedNext := by
  intro x j s hj hm hin hpc
  have hjx : j.val + 1 ≤ x.val := hj
  have hinside : baseAddr s + j.val + 1 < Config.memSize := by
    simp only [baseAddr, Config.memSize]
    omega
  have hhigh := Memory.read_store_regBytes hm (baseAddr s) s.v (Nat.le_of_succ_le hjx)
  have hlow := Memory.read_store_regBytes hm (baseAddr s) s.v hjx
  refine ⟨_, exec_storeRegs_of_inside hin, ?_⟩
  exact (fetch_of_pc_eq hpc hinside).trans (congrArg₂ (· ++ ·) hhigh hlow)

end Sys2Proof.Machine

namespace Sys2Proof

/-! ### What a matched row says about the fields of the word (30_encoding.md R51, R55) -/

section
variable {w v mask : Word} {build : Word → Instr}

theorem rowMatches_iff : rowMatches w ⟨mask, v, build⟩ = true ↔ w &&& mask = v := beq_iff_eq

/-- A field that lies inside the mask of a matched row is that field of the row's value. -/
theorem extractLsb'_of_matches {start len : Nat} (h : rowMatches w ⟨mask, v, build⟩ = true)
    (hmask : mask.extractLsb' start len = BitVec.allOnes len) :
    w.extractLsb' start len = v.extractLsb' start len := by
  rw [← rowMatches_iff.1 h, BitVec.extractLsb'_and, hmask, BitVec.and_allOnes]

/-- A row with the full mask matches its value alone. -/
theorem matches_fullMask_iff : rowMatches w ⟨0xFFFF, v, build⟩ = true ↔ w = v := by
  have hmask : w &&& 0xFFFF = w := BitVec.and_allOnes
  rw [rowMatches_iff, hmask]

theorem matches_topMask_iff (hv : v &&& 0xF000 = v) :
    rowMatches w ⟨0xF000, v, build⟩ = true ↔ w.extractLsb' 12 4 = v.extractLsb' 12 4 :=
  ⟨fun h => extractLsb'_of_matches h rfl, fun h => matches_top h ((and_topMask v).symm.trans hv)⟩

theorem matches_xyMask_iff (hv : v &&& 0xF00F = v) : rowMatches w ⟨0xF00F, v, build⟩ = true ↔
    w.extractLsb' 12 4 = v.extractLsb' 12 4 ∧ w.extractLsb' 0 4 = v.extractLsb' 0 4 :=
  ⟨fun h => ⟨extractLsb'_of_matches h rfl, extractLsb'_of_matches h rfl⟩,
    fun h => matches_xy h.1 h.2 ((and_xyMask v).symm.trans hv)⟩

theorem matches_xMask_iff (hv : v &&& 0xF0FF = v) : rowMatches w ⟨0xF0FF, v, build⟩ = true ↔
    w.extractLsb' 12 4 = v.extractLsb' 12 4 ∧ w.extractLsb' 0 8 = v.extractLsb' 0 8 :=
  ⟨fun h => ⟨extractLsb'_of_matches h rfl, extractLsb'_of_matches h rfl⟩,
    fun h => matches_x h.1 h.2 ((and_xMask v).symm.trans hv)⟩

end

/-! ### A word from its fields (R51, R52) -/

theorem wordNNN_fields (w : Word) : wordNNN (w.extractLsb' 12 4) (fieldNNN w) = w :=
  BitVec.extractLsb'_append_extractLsb'

theorem top_append_x (w : Word) : w.extractLsb' 12 4 ++ w.extractLsb' 8 4 = w.extractLsb' 8 8 :=
  BitVec.extractLsb'_append_extractLsb'_eq_extractLsb' rfl

theorem wordXKK_fields (w : Word) : wordXKK (w.extractLsb' 12 4) (fieldX w) (fieldKK w) = w :=
  (congrArg (· ++ fieldKK w) (top_append_x w)).trans BitVec.extractLsb'_append_extractLsb'

theorem wordXYN_fields (w : Word) :
    wordXYN (w.extractLsb' 12 4) (fieldX w) (fieldY w) (w.extractLsb' 0 4) = w := by
  have hopx : w.extractLsb' 8 8 ++ w.extractLsb' 4 4 = w.extractLsb' 4 12 :=
    BitVec.extractLsb'_append_extractLsb'_eq_extractLsb' rfl
  rw [← top_append_x] at hopx
  exact (congrArg (· ++ w.extractLsb' 0 4) hopx).trans BitVec.extractLsb'_append_extractLsb'

/-- The first nibble and the other three fix a word. -/
theorem word_eq_iff {w v : Word} : w = v ↔ w.extractLsb' 12 4 = v.extractLsb' 12 4 ∧ fieldNNN w = fieldNNN v := by
  refine ⟨fun h => h ▸ ⟨rfl, rfl⟩, fun ⟨htop, hnnn⟩ => ?_⟩
  rw [← wordNNN_fields w, ← wordNNN_fields v, htop, hnnn]

/-- The words that no row of the table matches are R58's: for each first nibble, the rows that have it test what
R58's class of that nibble leaves. -/
theorem no_row_matches_iff (w : Word) : (∀ r ∈ dispatchTable, ¬rowMatches w r = true) ↔ isUnmatched w = true := by
  simp (disch := decide) only [dispatchTable, rowsLow, rowsMid, rowsHigh, List.cons_append, List.nil_append,
    List.forall_mem_cons, List.not_mem_nil, matches_fullMask_iff, word_eq_iff, matches_topMask_iff,
    matches_xyMask_iff, matches_xMask_iff, isUnmatched]
  generalize w.extractLsb' 12 4 = top, w.extractLsb' 0 4 = low, w.extractLsb' 0 8 = kk
  have hlow : ∀ l : BitVec 4, (l ≠ 0 ∧ l ≠ 1 ∧ l ≠ 2 ∧ l ≠ 3 ∧ l ≠ 4 ∧ l ≠ 5 ∧ l ≠ 6 ∧ l ≠ 7 ∧ l ≠ 0xE) ↔
      (l = 8 ∨ l = 9 ∨ l = 0xA ∨ l = 0xB ∨ l = 0xC ∨ l = 0xD ∨ l = 0xF) := by decide
  obtain ⟨top⟩ := top
  fin_cases top
  -- only among the 8xy_ words do rows and class list low nibbles on both sides
  on_goal 9 => simpa using hlow low
  all_goals simp

/-! ### Each row of the table and the encoder (R52, R55) -/

/-- The instruction that a row builds from a word it matches encodes as that word. -/
def RebuildsWord (r : Row) : Prop := ∀ w, rowMatches w r = true → encode (r.build w) = w

section
variable {v : Word} {build : Word → Instr}

theorem RebuildsWord.full (h : encode (build v) = v) : RebuildsWord ⟨0xFFFF, v, build⟩ := by
  intro w hw
  obtain rfl := matches_fullMask_iff.1 hw
  exact h

theorem RebuildsWord.nnn (h : ∀ w, encode (build w) = wordNNN (v.extractLsb' 12 4) (fieldNNN w)) :
    RebuildsWord ⟨0xF000, v, build⟩ := by
  intro w hw
  rw [h, ← extractLsb'_of_matches hw rfl, wordNNN_fields]

theorem RebuildsWord.xkk (h : ∀ w, encode (build w) = wordXKK (v.extractLsb' 12 4) (fieldX w) (fieldKK w)) :
    RebuildsWord ⟨0xF000, v, build⟩ := by
  intro w hw
  rw [h, ← extractLsb'_of_matches hw rfl, wordXKK_fields]

theorem RebuildsWord.xyn (h : ∀ w, encode (build w) =
    wordXYN (v.extractLsb' 12 4) (fieldX w) (fieldY w) (w.extractLsb' 0 4)) :
    RebuildsWord ⟨0xF000, v, build⟩ := by
  intro w hw
  rw [h, ← extractLsb'_of_matches hw rfl, wordXYN_fields]

theorem RebuildsWord.xy (h : ∀ w, encode (build w) =
    wordXYN (v.extractLsb' 12 4) (fieldX w) (fieldY w) (v.extractLsb' 0 4)) :
    RebuildsWord ⟨0xF00F, v, build⟩ := by
  intro w hw
  rw [h, ← extractLsb'_of_matches hw rfl, ← extractLsb'_of_matches hw rfl, wordXYN_fields]

theorem RebuildsWord.x (h : ∀ w, encode (build w) =
    wordXKK (v.extractLsb' 12 4) (fieldX w) (v.extractLsb' 0 8)) :
    RebuildsWord ⟨0xF0FF, v, build⟩ := by
  intro w hw
  have hkk : fieldKK w = v.extractLsb' 0 8 := extractLsb'_of_matches hw rfl
  rw [h, ← extractLsb'_of_matches hw rfl, ← hkk, wordXKK_fields]

end

theorem rebuildsWord_rowsLow : ∀ r ∈ rowsLow, RebuildsWord r := by
  simp only [rowsLow, List.forall_mem_cons]
  exact ⟨.full rfl, .full rfl, .nnn fun _ => rfl, .nnn fun _ => rfl, .nnn fun _ => rfl, .xkk fun _ => rfl,
    .xkk fun _ => rfl, .xy fun _ => rfl, .xkk fun _ => rfl, .xkk fun _ => rfl, List.forall_mem_nil _⟩

theorem rebuildsWord_rowsMid : ∀ r ∈ rowsMid, RebuildsWord r := by
  simp only [rowsMid, List.forall_mem_cons]
  exact ⟨.xy fun _ => rfl, .xy fun _ => rfl, .xy fun _ => rfl, .xy fun _ => rfl, .xy fun _ => rfl,
    .xy fun _ => rfl, .xy fun _ => rfl, .xy fun _ => rfl, .xy fun _ => rfl, .xy fun _ => rfl,
    .nnn fun _ => rfl, .nnn fun _ => rfl, .xkk fun _ => rfl, .xyn fun _ => rfl, List.forall_mem_nil _⟩

theorem rebuildsWord_rowsHigh : ∀ r ∈ rowsHigh, RebuildsWord r := by
  simp only [rowsHigh, List.forall_mem_cons]
  exact ⟨.x fun _ => rfl, .x fun _ => rfl, .x fun _ => rfl, .x fun _ => rfl, .x fun _ => rfl, .x fun _ => rfl,
    .x fun _ => rfl, .x fun _ => rfl, .x fun _ => rfl, .x fun _ => rfl, .x fun _ => rfl, List.forall_mem_nil _⟩

theorem rebuildsWord_of_mem {r : Row} (h : r ∈ dispatchTable) : RebuildsWord r :=
  List.forall_mem_append.2 ⟨List.forall_mem_append.2 ⟨rebuildsWord_rowsLow, rebuildsWord_rowsMid⟩,
    rebuildsWord_rowsHigh⟩ r h

/-! ### The decoder: the first row that matches (R54) -/

/-- The instruction of a word is the one that a matching row builds, or row 36 when no row matches. -/
theorem decodeWord_cases (w : Word) :
    (∃ r ∈ dispatchTable, rowMatches w r = true ∧ decodeWord w = r.build w) ∨
      (isUnmatched w = true ∧ decodeWord w = .unmatched w) := by
  unfold decodeWord
  split
  · next r h => exact .inl ⟨r, List.mem_of_find?_eq_some h, List.find?_some h, rfl⟩
  · next h => exact .inr ⟨(no_row_matches_iff w).1 (List.find?_eq_none.1 h), rfl⟩

theorem decodeWord_of_isUnmatched {w : Word} (h : isUnmatched w = true) : decodeWord w = .unmatched w := by
  obtain ⟨r, hr, hw, -⟩ | ⟨-, hd⟩ := decodeWord_cases w
  · exact absurd hw ((no_row_matches_iff w).2 h r hr)
  · exact hd

/-- Rows 1 to 35 never build row 36's instruction. -/
theorem build_ne_unmatched {r : Row} (h : r ∈ dispatchTable) (w u : Word) : r.build w ≠ .unmatched u := by
  revert r
  simp [dispatchTable, rowsLow, rowsMid, rowsHigh]

theorem decodeWord_eq_unmatched_iff (w : Word) : decodeWord w = .unmatched w ↔ isUnmatched w = true := by
  refine ⟨fun h => ?_, decodeWord_of_isUnmatched⟩
  obtain ⟨r, hr, -, hd⟩ | ⟨hu, -⟩ := decodeWord_cases w
  · exact absurd (hd.symm.trans h) (build_ne_unmatched hr w w)
  · exact hu

/-- Whichever row is chosen, the instruction encodes as the word. -/
theorem encode_decodeWord (w : Word) : encode (decodeWord w) = w := by
  obtain ⟨r, hr, hw, hd⟩ | ⟨-, hd⟩ := decodeWord_cases w
  · rw [hd, rebuildsWord_of_mem hr w hw]
  · rw [hd, encode]

theorem Instr.wf_sys_iff {nnn : Imm12} : (Instr.sys nnn).wf = true ↔ nnn ≠ 0x0E0#12 ∧ nnn ≠ 0x0EE#12 := by
  simp [Instr.wf]

/-- The words of CLS and RET never decode to SYS, and row 36 keeps only R58's words. -/
theorem decodeWord_wf (w : Word) : (decodeWord w).wf = true := by
  have hw := encode_decodeWord w
  cases hd : decodeWord w with
  | sys nnn =>
    rw [hd] at hw
    refine Instr.wf_sys_iff.2 ⟨?_, ?_⟩
    all_goals
      rintro rfl
      rw [← hw] at hd
      exact absurd hd (by decide)
  | unmatched u =>
    obtain rfl : u = w := by rwa [hd] at hw
    exact (decodeWord_eq_unmatched_iff u).1 hd
  | _ => rfl

/-- Settles O2: the row that is chosen rebuilds the word. -/
theorem encodeOfDecode : Obligations.EncodeOfDecode := fun w => ⟨decodeWord_wf w, encode_decodeWord w⟩

/-- Settles O4: the classes are what the table leaves, and row 36's meaning is the no-op. -/
theorem unmatchedWordsAreNoOps : Obligations.UnmatchedWordsAreNoOps :=
  ⟨decodeWord_eq_unmatched_iff, fun _ _ => rfl⟩

/-! ### Overlaps of the rows (R56) -/

/-- Two rows that one word matches have values that agree where both masks are set. -/
theorem values_agree_of_matches {w : Word} {r q : Row} (hr : rowMatches w r = true) (hq : rowMatches w q = true) :
    r.value &&& q.mask = q.value &&& r.mask := by
  rw [← beq_iff_eq.1 hr, ← beq_iff_eq.1 hq, BitVec.and_assoc, BitVec.and_assoc, BitVec.and_comm r.mask]

/-- Of two rows of the table whose values agree so, the later is row 3 and the earlier row 1 or 2. -/
theorem rows_of_values_agree : ∀ j k : Fin dispatchTable.length, j < k →
    dispatchTable[j].value &&& dispatchTable[k].mask = dispatchTable[k].value &&& dispatchTable[j].mask →
    k.val = 2 ∧ (j.val = 0 ∨ j.val = 1) := by decide

/-- Settles O3: rows whose values agree are compared once, and rows 1 and 2 match their value alone. -/
theorem rowsOverlapOnlyAtClsAndRet : Obligations.RowsOverlapOnlyAtClsAndRet := by
  intro w j k r q hjk hr hq hwr hwq
  obtain ⟨hj, rfl⟩ := List.getElem?_eq_some_iff.1 hr
  obtain ⟨hk, rfl⟩ := List.getElem?_eq_some_iff.1 hq
  obtain ⟨hk2, rfl | rfl⟩ := rows_of_values_agree ⟨j, hj⟩ ⟨k, hk⟩ hjk (values_agree_of_matches hwr hwq)
  · exact ⟨hk2, .inl ⟨rfl, matches_fullMask_iff.1 hwr⟩⟩
  · exact ⟨hk2, .inr ⟨rfl, matches_fullMask_iff.1 hwr⟩⟩

/-! ### Decoding an encoded instruction (R54, R55) -/

section
open Laws.EncodesInRow

/-- Every instruction's word matches the instruction's own row, which reads it back. -/
theorem encodesInRow : ∀ i : Instr, Statement i
  | .cls => cls
  | .ret => ret
  | .sys nnn => sys nnn
  | .jp nnn => jp nnn
  | .call nnn => call nnn
  | .seImm x kk => seImm x kk
  | .sneImm x kk => sneImm x kk
  | .seReg x y => seReg x y
  | .ldImm x kk => ldImm x kk
  | .addImm x kk => addImm x kk
  | .ldReg x y => ldReg x y
  | .orReg x y => orReg x y
  | .andReg x y => andReg x y
  | .xorReg x y => xorReg x y
  | .addReg x y => addReg x y
  | .subReg x y => subReg x y
  | .shr x y => shr x y
  | .subnReg x y => subnReg x y
  | .shl x y => shl x y
  | .sneReg x y => sneReg x y
  | .ldI nnn => ldI nnn
  | .jpV0 nnn => jpV0 nnn
  | .rnd x kk => rnd x kk
  | .drw x y n => drw x y n
  | .skp x => skp x
  | .sknp x => sknp x
  | .ldVxDt x => ldVxDt x
  | .ldVxK x => ldVxK x
  | .ldDtVx x => ldDtVx x
  | .ldStVx x => ldStVx x
  | .addI x => addI x
  | .ldF x => ldF x
  | .ldB x => ldB x
  | .storeRegs x => storeRegs x
  | .loadRegs x => loadRegs x
  | .unmatched w => unmatched w

/-- A row that a word matches is the one the decoder takes, unless it is row 3 with the word of row 1 or 2. -/
theorem decodeWord_of_row {w : Word} {k : Nat} {r : Row} (hk : dispatchTable[k]? = some r)
    (hm : rowMatches w r = true) (hw : k = 2 → w ≠ 0x00E0 ∧ w ≠ 0x00EE) : decodeWord w = r.build w := by
  have hfind : dispatchTable.find? (rowMatches w) = some r := by
    obtain ⟨hlt, hget⟩ := List.getElem?_eq_some_iff.1 hk
    refine List.find?_eq_some_iff_getElem.2 ⟨hm, k, hlt, hget, fun j hj => ?_⟩
    refine Bool.not_eq_true' _ ▸ Bool.eq_false_iff.2 fun hjm => ?_
    obtain ⟨hk2, ⟨-, he⟩ | ⟨-, he⟩⟩ := rowsOverlapOnlyAtClsAndRet w j k _ r hj
      (List.getElem?_eq_getElem (Nat.lt_trans hj hlt)) hk hjm hm
    · exact (hw hk2).1 he
    · exact (hw hk2).2 he
  rw [decodeWord, hfind]

/-- The word of a well-formed SYS is neither CLS's nor RET's. -/
theorem encode_sys_ne {nnn : Imm12} (h : (Instr.sys nnn).wf = true) :
    encode (.sys nnn) ≠ 0x00E0 ∧ encode (.sys nnn) ≠ 0x00EE := by
  obtain ⟨hcls, hret⟩ := Instr.wf_sys_iff.1 h
  have hnnn : fieldNNN (encode (.sys nnn)) = nnn := fieldNNN_wordNNN 0x0 nnn
  exact ⟨fun he => hcls (hnnn.symm.trans (congrArg fieldNNN he)),
    fun he => hret (hnnn.symm.trans (congrArg fieldNNN he))⟩

/-- Row 3 is SYS's. -/
theorem eq_sys_of_rowNumber {i : Instr} (h : rowNumber i - 1 = 2) : ∃ nnn, i = .sys nnn := by
  cases i <;> simp [rowNumber] at h ⊢

/-- Every instruction but row 36's stands for one of rows 1 to 35. -/
theorem rowNumber_sub_one_lt {i : Instr} (h : ∀ w, i ≠ .unmatched w) : rowNumber i - 1 < dispatchTable.length := by
  cases i with
  | unmatched w => exact absurd rfl (h w)
  | _ => exact of_decide_eq_true rfl

/-- A well-formed instruction's own row is the one that its word selects. -/
theorem decodeWord_encode {i : Instr} (hwf : i.wf = true) : decodeWord (encode i) = i := by
  by_cases hu : ∃ w, i = .unmatched w
  · obtain ⟨w, rfl⟩ := hu
    exact decodeWord_of_isUnmatched hwf
  · obtain ⟨r, hrow, hm, hbuild⟩ := encodesInRow i
    have hlt := rowNumber_sub_one_lt fun w h => hu ⟨w, h⟩
    rw [allRows, List.getElem?_append_left hlt] at hrow
    rw [decodeWord_of_row hrow hm, hbuild]
    intro hrow3
    obtain ⟨nnn, rfl⟩ := eq_sys_of_rowNumber hrow3
    exact encode_sys_ne hwf

end

/-- Settles O1: the bytes are those of the word, which decodes to the instruction. -/
theorem decodeOfEncode : Obligations.DecodeOfEncode := by
  intro i rest hwf
  rw [encodeBytes, decode_wordBytes, decodeWord_encode hwf]

/-! ### The formats as numbers (R52) -/

/-- A concatenation as a number: the high part counts in units of the low part's range. -/
theorem toNat_append_eq {m n : Nat} (a : BitVec m) (b : BitVec n) : (a ++ b).toNat = a.toNat * 2 ^ n + b.toNat := by
  rw [BitVec.toNat_append, ← Nat.shiftLeft_add_eq_or_of_lt b.isLt, Nat.shiftLeft_eq]

section
variable (op : BitVec 4) (x y : Reg) (kk : Byte) (nnn : Imm12) (n : BitVec 4)

theorem toNat_wordNNN : (wordNNN op nnn).toNat = 4096 * op.toNat + nnn.toNat := by
  rw [wordNNN, toNat_append_eq]
  omega

theorem toNat_wordXKK : (wordXKK op x kk).toNat = 4096 * op.toNat + 256 * x.val + kk.toNat := by
  simp only [wordXKK, toNat_append_eq, BitVec.toNat_ofFin]
  omega

theorem toNat_wordXYN : (wordXYN op x y n).toNat = 4096 * op.toNat + 256 * x.val + 16 * y.val + n.toNat := by
  simp only [wordXYN, toNat_append_eq, BitVec.toNat_ofFin]
  omega

end

/-- Settles O5: the number of each format, with the row's constants put in. -/
theorem encodingsAsNumbers : Obligations.EncodingsAsNumbers := by
  intro x y n kk nnn
  simp only [encode, toNat_wordNNN, toNat_wordXKK, toNat_wordXYN, BitVec.toNat_ofFin, BitVec.reduceToNat,
    true_and, and_true]
  and_intros
  all_goals omega

/-- Settles O6, each word by running the decoder. -/
theorem sampleWordsDecode : Obligations.SampleWordsDecode := by
  unfold Obligations.SampleWordsDecode
  decide

end Sys2Proof

namespace Sys2Proof.Machine

/-! ### The step as the decoded instruction (30_encoding.md R60) -/

/-- Settles O7: the fetch guard passes, and the fetched word is the pair of bytes. -/
theorem stepRunsDecodedInstruction : Obligations.StepRunsDecodedInstruction := by
  intro s i hrun hin hdec
  have hi : decodeWord (fetch s) = i := by
    rw [fetch_of_inside (Nat.lt_succ_of_le hin)]
    exact congrArg Prod.fst (Except.ok.inj hdec)
  rw [step_of_running hrun, fetchExecute, hi]
  cases exec i s <;> rfl

section
variable {i : Instr} {s t : State}

/-- A guarded instruction that answers `t` latched a fault and changed nothing else, or had its effect. -/
theorem eq_of_guarded {check : Option Cause} {effect : State} (h : guarded check s effect = .next t) :
    (t.fault ≠ 0 ∧ t = { s with fault := t.fault }) ∨ (check = none ∧ t = effect) := by
  obtain ⟨c, -, hg⟩ | ⟨hc, hg⟩ := guarded_cases check s effect
  · cases hg.symm.trans h
    exact .inl ⟨causeCode_ne_zero c, rfl⟩
  · cases hg.symm.trans h
    exact .inr ⟨hc, rfl⟩

/-- A guarded instruction has a next state either way. -/
theorem exists_guarded_eq_next (check : Option Cause) (s effect : State) : ∃ t, guarded check s effect = .next t := by
  obtain ⟨c, -, hg⟩ | ⟨-, hg⟩ := guarded_cases check s effect
  · exact ⟨_, hg⟩
  · exact ⟨_, hg⟩

/-- Every instruction has a next state in every state (93_implementation_defined.md Part 1). -/
theorem exists_exec_eq_next (i : Instr) (s : State) : ∃ t, exec i s = .next t := by
  cases i with
  | ret | call | drw | skp | sknp | ldB | storeRegs | loadRegs => exact exists_guarded_eq_next _ _ _
  | ldVxK x =>
    simp only [exec, execLdVxK]
    split
    · exact ⟨_, rfl⟩
    · exact ⟨_, rfl⟩
  | _ => exact ⟨_, rfl⟩

/-! ### DRAW and the report of a step (R60; 60_exceptions.md R163) -/

/-- From DRAW 0 and no fault, an instruction sets DRAW exactly when it is CLS, or DRW without a fault. -/
theorem exec_draw_iff (hdraw : s.draw = false) (hrun : s.running) (h : exec i s = .next t) :
    t.draw = true ↔ t.fault = 0 ∧ (i = .cls ∨ ∃ x y n, i = .drw x y n) := by
  constructor
  · intro ht
    have hi := writes_draw_iff.1 ((exec_changesOnlyOwned h).draw (by simp [ht, hdraw]))
    refine ⟨?_, hi⟩
    obtain rfl | ⟨x, y, n, rfl⟩ := hi
    · cases h
      exact hrun
    · obtain ⟨-, heq⟩ | ⟨-, rfl⟩ := eq_of_guarded h
      · rw [heq] at ht
        exact absurd (hdraw.symm.trans ht) Bool.false_ne_true
      · exact hrun
  · rintro ⟨hfault, rfl | ⟨x, y, n, rfl⟩⟩
    · cases h
      rfl
    · obtain ⟨hne, -⟩ | ⟨-, rfl⟩ := eq_of_guarded h
      · exact absurd hfault hne
      · rfl

/-- While a fault is latched the report shows no change (R152). -/
theorem stepReport_of_faulted (h : s.fault ≠ 0) :
    stepReport s = { view := s.fb, changed := false, fault := s.fault } := if_pos h

/-- With no fault latched the report is read from the state before DRAW is cleared. -/
theorem stepReport_of_running (hrun : s.running) (h : exec (decodeWord (fetch s)) s = .next t) :
    stepReport s = { view := t.fb, changed := t.draw, fault := t.fault } := by
  rw [stepReport, if_neg (not_not_intro hrun), fetchExecute, h]

end

/-- Settles O11: `changed` is the DRAW that the executed instruction left. -/
theorem stepReportsChange : Obligations.StepReportsChange := by
  intro s hdraw
  by_cases hrun : s.fault = 0
  · obtain ⟨u, hu⟩ := exists_exec_eq_next (decodeWord (fetch s)) s
    refine ⟨u.setDraw false, ?_, ?_⟩
    · rw [step_of_running hrun, fetchExecute, hu, clearDraw]
    · rw [stepReport_of_running hrun hu]
      refine ⟨rfl, rfl, rfl, (exec_draw_iff hdraw hrun hu).trans ?_⟩
      simp [hrun]
  · refine ⟨s, step_of_faulted hrun, ?_⟩
    rw [stepReport_of_faulted hrun]
    exact ⟨rfl, rfl, hdraw, fun h => absurd h Bool.false_ne_true, fun h => absurd h.1 hrun⟩

/-! ### Where PC goes (R61) -/

section
variable {s : State}

theorem toNat_addrOperand (nnn : Imm12) : (addrOperand nnn).toNat = nnn.toNat := by
  rw [addrOperand, BitVec.toNat_setWidth_of_le (by decide)]

/-- The sum of Bnnn never reaches 2^16 (40_control_flow.md R75). -/
theorem toNat_addrOperand_add_wideOperand (nnn : Imm12) (b : Byte) :
    (addrOperand nnn + wideOperand b).toNat = nnn.toNat + b.toNat := by
  rw [BitVec.toNat_add, toNat_addrOperand, wideOperand, BitVec.toNat_setWidth_of_le (by decide)]
  omega

/-- A skip that does not end at PC + 2 was taken (41_skips.md R86). -/
theorem skipIf_pc_of_ne {c : Bool} (h : (skipIf c s).pc ≠ s.pc + 2) : (skipIf c s).pc = s.pc + 4 := by
  cases c with
  | true => rfl
  | false => exact absurd rfl h

/-- With no least key, no key is pressed (46_timers_input.md R141). -/
theorem leastKey_eq_none (h : leastKey s = none) (k : Fin 16) : s.keys[k] = false := by
  have hk : ¬s.keys[k] = true := List.find?_eq_none.1 h k (List.mem_finRange k)
  exact Bool.not_eq_true _ ▸ hk

end

/-- Settles O28: a fault is one case for every instruction that can raise one; without it, each instruction's one PC
write decides. -/
theorem pcAdvancesByTwoExcept : Obligations.PcAdvancesByTwoExcept := by
  intro i s t h hpc
  by_cases hfault : t.fault ≠ 0 ∧ t = { s with fault := t.fault }
  · exact .inr (.inr (.inr (.inr (.inr (.inr hfault)))))
  have heffect {check : Option Cause} {effect : State} (hg : guarded check s effect = .next t) : t = effect :=
    ((eq_of_guarded hg).resolve_left hfault).2
  cases i with
  | jp nnn =>
    cases h
    exact .inl ⟨nnn, rfl, toNat_addrOperand nnn⟩
  | call nnn =>
    obtain rfl := heffect h
    exact .inr (.inl ⟨nnn, rfl, toNat_addrOperand nnn⟩)
  | jpV0 nnn =>
    cases h
    exact .inr (.inr (.inl ⟨nnn, rfl, toNat_addrOperand_add_wideOperand nnn _⟩))
  | ret =>
    obtain rfl := heffect h
    exact .inr (.inr (.inr (.inl ⟨rfl, rfl⟩)))
  | seImm x kk | sneImm x kk =>
    cases h
    exact .inr (.inr (.inr (.inr (.inl ⟨skipIf_pc_of_ne hpc, x, .inl ⟨kk, by simp⟩⟩))))
  | seReg x y | sneReg x y =>
    cases h
    exact .inr (.inr (.inr (.inr (.inl ⟨skipIf_pc_of_ne hpc, x, .inr (.inl ⟨y, by simp⟩)⟩))))
  | skp x | sknp x =>
    obtain rfl := heffect h
    exact .inr (.inr (.inr (.inr (.inl ⟨skipIf_pc_of_ne hpc, x, by simp⟩))))
  | ldVxK x =>
    simp only [exec, execLdVxK] at h
    split at h
    · cases h
      exact absurd rfl hpc
    · next hnone =>
      cases h
      exact .inr (.inr (.inr (.inr (.inr (.inl ⟨rfl, ⟨x, rfl⟩, leastKey_eq_none hnone⟩)))))
  | drw | ldB | storeRegs | loadRegs =>
    obtain rfl := heffect h
    exact absurd rfl hpc
  | _ =>
    cases h
    exact absurd rfl hpc

end Sys2Proof.Machine

namespace Sys2Proof.Machine

/-! ### The frame of an instruction that latches no fault, as `unchangedBut` says it -/

section
variable {i : Instr} {s t : State} {nnn : Imm12}

/-- `exec_changesOnlyOwned` in the words of the obligations: without a fault an instruction changes at most PC, the
parts that `writes` gives it, and V if it writes a register. -/
theorem exec_unchangedBut {v : Bool} (h : exec i s = .next t) (hfault : t.fault = s.fault)
    (hv : v = false → ∀ r, ¬writesReg i r) :
    unchangedBut { writes i with v := v, pc := true, fault := false } s t := by
  have howned := exec_changesOnlyOwned h
  have same {α : Type} {a b : α} {written : Bool} (hw : a ≠ b → written = true) (hf : written = false) : a = b :=
    by_contra fun hab => Bool.false_ne_true (hf.symm.trans (hw hab))
  have hregs (hp : v = false) : t.v = s.v :=
    Vector.ext fun r hr => by_contra fun hne => hv hp ⟨r, hr⟩ (howned.v ⟨r, hr⟩ hne)
  have hmem (hp : (writes i).mem = false) (a : Nat) : Memory.read t.mem a = Memory.read s.mem a := by
    rw [same howned.mem hp]
  have hfb (hp : (writes i).fb = false) (px : Fin 64) (py : Fin 32) : pixel t.fb px py = pixel s.fb px py := by
    rw [same howned.fb hp]
  exact ⟨hregs, same howned.i, nofun, same howned.sp, same howned.stack, same howned.dt, same howned.st, hmem, hfb,
    same howned.draw, fun _ => howned.keys, fun _ => hfault, same howned.draws⟩

/-! ### CALL and RET on each side of their fault checks (40_control_flow.md R72, R74) -/

theorem exec_call_of_full (h : s.sp = 15) : exec (.call nnn) s = .next (s.setFault 1) := by
  rw [exec, execCall, if_pos h, guarded_some, raise_eq, causeCode]

theorem exec_call_of_room (h : s.sp ≠ 15) :
    exec (.call nnn) s = .next ((push (s.pc + 2) s).setPc (addrOperand nnn)) := by
  rw [exec, execCall, if_neg h, guarded_none]

theorem exec_ret_of_empty (h : s.sp = 0) : exec .ret s = .next (s.setFault 2) := by
  rw [exec, execRet, if_pos h, guarded_some, raise_eq, causeCode]

theorem exec_ret_of_nonempty (h : s.sp ≠ 0) : exec .ret s = .next (pop (s.setPc s.stack[s.sp])) := by
  rw [exec, execRet, if_neg h, guarded_none]

/-! ### The stack across a push and a pop -/

theorem push_sp (w : Word) (s : State) : (push w s).sp = s.sp + 1 := rfl

/-- A push leaves its word in the slot that the new SP names. -/
theorem push_top (w : Word) (s : State) : (push w s).stack[(push w s).sp] = w := by
  rw [getElem_push, if_pos (push_sp w s)]

/-- A pop after a push, with PC written in between, keeps of the push only the slot that it wrote. -/
theorem pop_setPc_push (w a : Word) (s : State) : pop ((push w s).setPc a) = (s.setSlot (s.sp + 1) w).setPc a := by
  simp [pop, push, State.setSp, State.setSlot, State.setPc]

/-- SP does not wrap below the top of its range. -/
theorem val_add_one_of_ne_max {k : Fin 16} (h : k ≠ 15) : (k + 1).val = k.val + 1 :=
  Fin.val_add_one_of_lt (Fin.lt_last_iff_ne_last.2 h)

/-- After a CALL that did not fault, RET finds the stack nonempty and takes the return address from it. -/
theorem exec_ret_of_call (h : s.sp ≠ 15) :
    exec .ret ((push (s.pc + 2) s).setPc (addrOperand nnn)) =
      .next ((s.setSlot (s.sp + 1) (s.pc + 2)).setPc (s.pc + 2)) := by
  have hne : s.sp + 1 ≠ 0 := fun hzero => h (eq_neg_of_add_eq_zero_left hzero)
  rw [exec_ret_of_nonempty hne]
  simp only [State.setPc_stack, State.setPc_sp, push_top]
  exact congrArg _ (pop_setPc_push (s.pc + 2) (s.pc + 2) s)

end

/-- Settles O35: the fault at the top of SP's range, the push below it. -/
theorem callPushesOrOverflows : Obligations.CallPushesOrOverflows := by
  intro nnn s
  refine ⟨exec_call_of_full, fun h => ⟨_, exec_call_of_room h, ?_⟩⟩
  refine ⟨val_add_one_of_ne_max h, push_top (s.pc + 2) s, fun k hk => ?_, toNat_addrOperand nnn,
    exec_unchangedBut (exec_call_of_room h) rfl fun _ _ => id⟩
  have hslot : k ≠ s.sp + 1 := hk
  rw [State.setPc_stack, getElem_push, if_neg hslot]

/-- Settles O37: the two together write PC and the slot above SP. -/
theorem callThenRetReturns : Obligations.CallThenRetReturns := by
  intro nnn s h
  refine ⟨_, _, exec_call_of_room h, exec_ret_of_call h, rfl, rfl, fun k hk => ?_, by simp [unchangedBut]⟩
  have hne : s.sp.val + 1 ≠ k.val := hk.symm
  simp [val_add_one_of_ne_max h, hne]

/-- Settles O32: the blank screen is drawn whatever was there. -/
theorem clsClearsScreen : Obligations.ClsClearsScreen :=
  fun _ => ⟨_, rfl, pixel_blankFb, rfl, rfl, exec_unchangedBut (i := .cls) rfl rfl fun _ _ => id⟩

/-- Settles O33: SYS is the PC write alone. -/
theorem sysOnlyAdvances : Obligations.SysOnlyAdvances := fun _ s => congrArg Host.Outcome.next (advance_eq s)

/-- Settles O34: the fault on the empty stack, the pop on any other. -/
theorem retPopsOrUnderflows : Obligations.RetPopsOrUnderflows := by
  refine fun s => ⟨exec_ret_of_empty, fun h => ⟨_, exec_ret_of_nonempty h, rfl, ?_, ?_⟩⟩
  · exact Fin.val_sub_one_of_ne_zero h
  · exact exec_unchangedBut (exec_ret_of_nonempty h) rfl fun _ _ => id

/-- Settles O36: both are one PC write, of a sum that does not wrap. -/
theorem jumpsSetPc : Obligations.JumpsSetPc :=
  fun nnn s => ⟨⟨_, rfl, toNat_addrOperand nnn, exec_unchangedBut (i := .jp nnn) rfl rfl fun _ _ => id⟩,
    _, rfl, toNat_addrOperand_add_wideOperand nnn s.v[(0 : Reg)],
      exec_unchangedBut (i := .jpV0 nnn) rfl rfl fun _ _ => id⟩

end Sys2Proof.Machine

namespace Sys2Proof.Machine

/-! ### The skips (41_skips.md) -/

section
variable {s effect : State} {c : Bool} {p : Prop} [Decidable p] {a : Byte} {k : Fin 16}

/-- A skip whose test says `p` is taken when `p` holds (R86). -/
theorem skipIf_of_true_iff (h : c = true ↔ p) : skipIf c s = s.setPc (if p then s.pc + 4 else s.pc + 2) := by
  by_cases hp : p
  · rw [h.2 hp, skipIf_true, if_pos hp]
  · rw [Bool.eq_false_iff.2 (mt h.1 hp), skipIf_false, if_neg hp]

/-- A skip whose test says `¬p` is taken when `p` fails (R86). -/
theorem skipIf_of_false_iff (h : c = false ↔ p) : skipIf c s = s.setPc (if p then s.pc + 2 else s.pc + 4) := by
  by_cases hp : p
  · rw [h.2 hp, skipIf_false, if_pos hp]
  · rw [Bool.of_not_eq_false (mt h.1 hp), skipIf_true, if_neg hp]

/-! A key skip on each side of its fault check (R84, R85). -/

theorem guarded_keyCheck_of_gt (h : a.toNat > 15) : guarded (keyCheck a) s effect = .next (s.setFault 4) := by
  rw [keyCheck_of_gt h, guarded_some, raise_eq, causeCode]

theorem guarded_keyCheck_of_le (h : a.toNat ≤ 15) : guarded (keyCheck a) s effect = .next effect := by
  rw [keyCheck_eq_none.2 h, guarded_none]

theorem keyOperand_of_toNat_eq (h : a.toNat = k.val) : keyOperand s a = s.keys[k] := by
  have hlt : a.toNat < 16 := h ▸ k.isLt
  simp only [keyOperand_eq s hlt, h, Fin.getElem_fin]

theorem exec_skp_of_key {x : Reg} (h : s.v[x].toNat = k.val) : exec (.skp x) s = .next (skipIf s.keys[k] s) := by
  rw [exec, execSkp, regOperand, guarded_keyCheck_of_le (h ▸ Fin.is_le k), keyOperand_of_toNat_eq h]

theorem exec_sknp_of_key {x : Reg} (h : s.v[x].toNat = k.val) : exec (.sknp x) s = .next (skipIf (!s.keys[k]) s) := by
  rw [exec, execSknp, regOperand, guarded_keyCheck_of_le (h ▸ Fin.is_le k), keyOperand_of_toNat_eq h]

end

/-- Settles O39: KeyIndex above 15; up to 15 the test is the entry of the latch, or its negation. -/
theorem keySkipsTestLatch : Obligations.KeySkipsTestLatch := by
  refine fun x s => ⟨fun h => ⟨guarded_keyCheck_of_gt h, guarded_keyCheck_of_gt h⟩, fun k hk => ?_⟩
  rw [exec_skp_of_key hk, exec_sknp_of_key hk]
  exact ⟨congrArg _ (skipIf_of_true_iff Iff.rfl), congrArg _ (skipIf_of_false_iff (iff_of_eq (Bool.not_eq_false' _)))⟩

/-- Settles O38: the tests of SE say that the operands are equal, those of SNE that they are not. -/
theorem valueSkipsChoosePc : Obligations.ValueSkipsChoosePc :=
  fun _ _ _ _ => ⟨congrArg _ (skipIf_of_true_iff beq_iff_eq), congrArg _ (skipIf_of_false_iff bne_eq_false_iff_eq),
    congrArg _ (skipIf_of_true_iff beq_iff_eq), congrArg _ (skipIf_of_false_iff bne_eq_false_iff_eq)⟩

end Sys2Proof.Machine

namespace Sys2Proof.Machine

/-! ### The draw (42_immediate.md R92) -/

/-- Under one fault check, fault entry and effect both carry any position in the draws along. -/
theorem guarded_with_draws {s t effect : State} {check : Option Cause} (d : Nat)
    (h : guarded check s effect = .next t) :
    guarded check { s with draws := d } { effect with draws := d } = .next { t with draws := d } := by
  obtain ⟨c, rfl, hg⟩ | ⟨rfl, hg⟩ := guarded_cases check s effect
  · cases hg.symm.trans h
    rfl
  · cases hg.symm.trans h
    rfl

/-- Settles O29: RND alone mentions the position; every other effect, and every fault check, is computed from the rest
of the state. -/
theorem onlyRndReadsTheDraw : Obligations.OnlyRndReadsTheDraw := by
  intro i s t d hrnd h
  cases i with
  | rnd x kk => exact absurd rfl (hrnd x kk)
  | ret | call | drw | skp | sknp | ldB | storeRegs | loadRegs => exact guarded_with_draws d h
  | ldVxK x =>
    have hkey : leastKey { s with draws := d } = leastKey s := rfl
    simp only [exec, execLdVxK, hkey] at h ⊢
    split at h
    · cases h
      rfl
    · cases h
      rfl
  | _ =>
    cases h
    rfl

/-! ### Loads of one register (42_immediate.md R90 to R92, 43_alu.md R101, 46_timers_input.md R140) -/

section
variable {s : State} {x : Reg} {b : Byte}

theorem getElem_setV_same : (s.setV x b).v[x] = b := by
  rw [getElem_setV, if_pos rfl]

theorem getElem_setV_of_ne {r : Reg} (h : r ≠ x) : (s.setV x b).v[r] = s.v[r] := by
  rw [getElem_setV, if_neg h]

/-- An instruction that writes `b` to Vx and moves PC on does nothing else. -/
theorem exists_next_of_setV {ins : Instr} (h : exec ins s = .next (advance (s.setV x b))) :
    ∃ t, exec ins s = .next t ∧ t.v[x] = b ∧ (∀ r : Reg, r ≠ x → t.v[r] = s.v[r]) ∧ t.pc = s.pc + 2 ∧
      unchangedBut { v := true, pc := true } s t :=
  ⟨_, h, getElem_setV_same, fun _ => getElem_setV_of_ne, rfl, by simp [unchangedBut]⟩

end

/-- Settles O40: all four are one register write and the PC write. -/
theorem registerLoadsWriteOneRegister : Obligations.RegisterLoadsWriteOneRegister := by
  intro x y kk s
  obtain ⟨t, ht, hsum, hframe⟩ := exists_next_of_setV (ins := .addImm x kk) (s := s) rfl
  exact ⟨exists_next_of_setV rfl,
    ⟨t, ht, (congrArg BitVec.toNat hsum).trans (BitVec.toNat_add s.v[x] kk), hframe⟩,
    exists_next_of_setV rfl, exists_next_of_setV rfl⟩

/-- Settles O41: the register write of a masked byte, for any value of the draw. -/
theorem rndMasksTheDraw : Obligations.RndMasksTheDraw := by
  intro x kk s
  refine ⟨_, rfl, getElem_setV_same, fun k _ hk => ?_, fun _ => getElem_setV_of_ne, rfl, rfl,
    exec_unchangedBut (i := .rnd x kk) rfl rfl nofun⟩
  rw [advance_eq, State.setPc_v, State.countDraw_v, getElem_setV_same, BitVec.getLsbD_and, hk, Bool.and_false]

end Sys2Proof.Machine

namespace Sys2Proof.Machine

/-! ### Operations that write a result and a flag (43_alu.md R102 to R110) -/

theorem flagByte_decide (p : Prop) [Decidable p] : flagByte (decide p) = if p then 0x01 else 0x00 := by
  simp only [flagByte, decide_eq_true_eq]

theorem toNat_flagByte (c : Bool) : (flagByte c).toNat = c.toNat := by
  cases c <;> rfl

/-- The bit that SHR moves out is the remainder of the division by 2 (R107). -/
theorem toNat_flagByte_lowBitFlag (a : Byte) : (flagByte (lowBitFlag a)).toNat = a.toNat % 2 := by
  rw [toNat_flagByte, lowBitFlag, ← BitVec.testBit_toNat, Nat.toNat_testBit, Nat.pow_zero, Nat.div_one]

/-- The bit that SHL moves out is the quotient by 128, a byte having no bit above it (R109). -/
theorem toNat_flagByte_highBitFlag (a : Byte) : (flagByte (highBitFlag a)).toNat = a.toNat / 128 := by
  have ha : a.toNat / 128 < 2 := by omega
  rw [toNat_flagByte, highBitFlag, ← BitVec.testBit_toNat, Nat.toNat_testBit]
  exact Nat.mod_eq_of_lt ha

section
variable {ins : Instr} {s : State} {x : Reg} {result a b : Byte} {flag : Bool}

/-- An instruction that writes a result to Vx, then a flag to VF, and moves PC on does nothing else (R110). -/
theorem exists_next_of_resultFlag (h : exec ins s = .next (advance (writeResultFlag s x result flag))) :
    ∃ t, exec ins s = .next t ∧ (x ≠ regF → t.v[x] = result) ∧ t.v[regF] = flagByte flag ∧
      (∀ r : Reg, r ≠ x → r ≠ regF → t.v[r] = s.v[r]) ∧ t.pc = s.pc + 2 ∧
      unchangedBut { v := true, pc := true } s t := by
  have hv (r : Reg) := getElem_writeResultFlag s x result flag r
  refine ⟨_, h, fun hx => ?_, ?_, fun r hrx hrF => ?_, rfl, by simp [unchangedBut, writeResultFlag]⟩
  · exact (hv x).trans (by rw [if_neg hx, if_pos rfl])
  · exact (hv regF).trans (if_pos rfl)
  · exact (hv r).trans (by rw [if_neg hrF, if_neg hrx])

/-- A subtraction in either direction: the difference modulo 256 and the not-borrow flag (R106, R108). -/
theorem exists_next_of_sub (h : exec ins s = .next (advance (writeResultFlag s x (a - b) (noBorrowFlag a b)))) :
    ∃ t, exec ins s = .next t ∧ (x ≠ regF → t.v[x].toNat = (a.toNat + 256 - b.toNat) % 256) ∧
      t.v[regF] = (if a.toNat ≥ b.toNat then 0x01 else 0x00) ∧
      (∀ r : Reg, r ≠ x → r ≠ regF → t.v[r] = s.v[r]) ∧ t.pc = s.pc + 2 ∧
      unchangedBut { v := true, pc := true } s t := by
  obtain ⟨t, ht, hresult, hflag, hframe⟩ := exists_next_of_resultFlag h
  refine ⟨t, ht, fun hx => ?_, hflag.trans (flagByte_decide _), hframe⟩
  rw [hresult hx, BitVec.toNat_sub]
  omega

end

/-- Settles O42: all three write their result with the flag clear. -/
theorem logicOpsClearVf : Obligations.LogicOpsClearVf := fun _ _ _ =>
  ⟨exists_next_of_resultFlag (flag := false) rfl, exists_next_of_resultFlag (flag := false) rfl,
    exists_next_of_resultFlag (flag := false) rfl⟩

/-- Settles O43: the flag written last is the carry of the operands as sampled. -/
theorem addSetsCarry : Obligations.AddSetsCarry := by
  intro x y s
  obtain ⟨t, ht, hsum, hcarry, hframe⟩ := exists_next_of_resultFlag (ins := .addReg x y) (s := s) rfl
  exact ⟨t, ht, fun hx => (congrArg BitVec.toNat (hsum hx)).trans (BitVec.toNat_add s.v[x] s.v[y]),
    hcarry.trans (flagByte_decide _), hframe⟩

/-- Settles O44: both directions are one subtraction with its operands exchanged. -/
theorem subtractSetsNotBorrow : Obligations.SubtractSetsNotBorrow := fun _ _ _ =>
  ⟨exists_next_of_sub rfl, exists_next_of_sub rfl⟩

/-- Settles O45: a shift by one is a division or a multiplication by 2, and its flag the bit that this loses. -/
theorem shiftsMoveOutOneBit : Obligations.ShiftsMoveOutOneBit := by
  intro x y s
  constructor
  · obtain ⟨t, ht, hhalf, hbit, hframe⟩ := exists_next_of_resultFlag (ins := .shr x y) (s := s) rfl
    refine ⟨t, ht, fun hx => ?_, ?_, hframe⟩
    · rw [hhalf hx, BitVec.toNat_ushiftRight, Nat.shiftRight_one, regOperand]
    · rw [hbit, toNat_flagByte_lowBitFlag, regOperand]
  · obtain ⟨t, ht, hdouble, hbit, hframe⟩ := exists_next_of_resultFlag (ins := .shl x y) (s := s) rfl
    refine ⟨t, ht, fun hx => ?_, ?_, hframe⟩
    · rw [hdouble hx, BitVec.toNat_shiftLeft, Nat.shiftLeft_eq, regOperand]
    · rw [hbit, toNat_flagByte_highBitFlag, regOperand]

end Sys2Proof.Machine

namespace Sys2Proof.Machine

/-! ### A bounds check of at least one byte, on each side (20_memory.md R43, 60_exceptions.md R154) -/

section
variable {s effect : State} {base n : Nat}

theorem guarded_boundsCheck_of_gt (h : base + n > 4095) :
    guarded (boundsCheck base (n + 1)) s effect = .next (s.setFault 3) := by
  rw [boundsCheck_of_gt n.succ_ne_zero (Nat.succ_lt_succ h), guarded_some, raise_eq, causeCode]

theorem guarded_boundsCheck_of_le (h : base + n ≤ 4095) :
    guarded (boundsCheck base (n + 1)) s effect = .next effect := by
  rw [boundsCheck_eq_none.2 (.inr (Nat.succ_le_succ h)), guarded_none]

end

/-! ### A run of writes, read back (R32, R41) -/

section
variable {m : Memory} {base a k : Nat} {bs : List Byte}

theorem Memory.read_writeBytes_add (hm : Memory.wf m) (hk : k < bs.length) :
    Memory.read (Memory.writeBytes m base bs) (base + k) = bs[k] := by
  rw [Memory.read_writeBytes hm.1, if_pos (by omega), Nat.add_sub_cancel_left, List.getD_eq_getElem bs 0 hk]

theorem Memory.read_writeBytes_of_outside (hm : Memory.wf m) (h : a < base ∨ base + bs.length ≤ a) :
    Memory.read (Memory.writeBytes m base bs) a = Memory.read m a := by
  rw [Memory.read_writeBytes hm.1, if_neg (by omega)]

end

/-! ### Values that the index family computes (44_memory_index.md R121, R122, R125, R126) -/

section
variable {s : State} {x : Reg}

theorem toNat_wideOperand (b : Byte) : (wideOperand b).toNat = b.toNat := by
  rw [wideOperand, BitVec.toNat_setWidth_of_le (by decide)]

/-- Five times a byte does not wrap in I. -/
theorem toNat_wideOperand_mul_five (b : Byte) : (wideOperand b * 5).toNat = b.toNat * 5 := by
  have hb : b.toNat * 5 < 2 ^ 16 := by omega
  rw [BitVec.toNat_mul, toNat_wideOperand]
  exact Nat.mod_eq_of_lt hb

/-- The post-increment of an access inside MEM does not wrap. -/
theorem toNat_bumpedI (h : s.i.toNat + x.val ≤ 4095) : (bumpedI s x).toNat = s.i.toNat + x.val + 1 :=
  (BitVec.toNat_ofNat _ 16).trans (Nat.mod_eq_of_lt (by omega))

theorem getElem_loadedRegs_of_le (v : Vector Byte 16) (m : Memory) (base : Nat) {k : Reg} (h : k ≤ x) :
    (loadedRegs v m base x)[k] = Memory.read m (base + k.val) := by
  simp [loadedRegs, h]

/-! ### Fx33 and Fx65 inside MEM -/

theorem exec_ldB_of_inside (h : s.i.toNat + 2 ≤ 4095) : exec (.ldB x) s =
    .next (advance (s.setMem (Memory.writeBytes s.mem (baseAddr s) (bcdDigits (regOperand s x))))) :=
  guarded_boundsCheck_of_le h

theorem exec_loadRegs_of_inside (h : s.i.toNat + x.val ≤ 4095) : exec (.loadRegs x) s =
    .next (advance ((s.setRegs (loadedRegs s.v s.mem (baseAddr s) x)).setI (bumpedI s x))) :=
  guarded_boundsCheck_of_le h

end

/-- Settles O47: the digits are a run of three writes under one bounds check, and the quotients and remainders of
bytes are those of their numbers. -/
theorem bcdStoresThreeDigits : Obligations.BcdStoresThreeDigits := by
  refine fun x s hm => ⟨guarded_boundsCheck_of_gt, fun hin => ⟨_, exec_ldB_of_inside hin, ?_⟩⟩
  have hdigit (k : Nat) (hk : k < 3) := Memory.read_writeBytes_add (bs := bcdDigits s.v[x]) (base := baseAddr s) hm hk
  refine ⟨?_, ?_, ?_, fun a ha => Memory.read_writeBytes_of_outside hm ha, rfl,
    exec_unchangedBut (exec_ldB_of_inside hin) rfl fun _ _ => id⟩
  · exact (congrArg BitVec.toNat (hdigit 0 (by decide))).trans BitVec.toNat_udiv
  · exact (congrArg BitVec.toNat (hdigit 1 (by decide))).trans BitVec.toNat_umod
  · exact (congrArg BitVec.toNat (hdigit 2 (by decide))).trans BitVec.toNat_umod

/-- Settles O48: V0 to Vx are one run of writes under one bounds check. -/
theorem storeRegsWritesV0ToVx : Obligations.StoreRegsWritesV0ToVx := by
  refine fun x s hm => ⟨guarded_boundsCheck_of_gt, fun hin => ⟨_, exec_storeRegs_of_inside hin, ?_⟩⟩
  refine ⟨fun k hk => Memory.read_store_regBytes hm (baseAddr s) s.v hk, fun a ha => ?_, toNat_bumpedI hin, rfl,
    exec_unchangedBut (exec_storeRegs_of_inside hin) rfl fun _ _ => id⟩
  rw [Nat.add_assoc, ← length_regBytes s.v x] at ha
  exact Memory.read_writeBytes_of_outside hm ha

/-- Settles O49: each register up to Vx is read at its own address, the others are kept. -/
theorem loadRegsReadsV0ToVx : Obligations.LoadRegsReadsV0ToVx := by
  refine fun x s => ⟨guarded_boundsCheck_of_gt, fun hin => ⟨_, exec_loadRegs_of_inside hin, ?_⟩⟩
  exact ⟨fun _ => getElem_loadedRegs_of_le s.v s.mem (baseAddr s),
    fun _ => getElem_loadedRegs_of_lt s.v s.mem (baseAddr s), toNat_bumpedI hin, rfl,
    exec_unchangedBut (exec_loadRegs_of_inside hin) rfl nofun⟩

/-- Settles O50: the load reads, at the same addresses, what the store left there. -/
theorem storeThenLoadRestoresRegisters : Obligations.StoreThenLoadRestoresRegisters := by
  intro x s between hm hin
  obtain ⟨t, hstore, hstored, -⟩ := (storeRegsWritesV0ToVx x s hm).2 hin
  obtain ⟨u, hload, hloaded, hkept, -⟩ := (loadRegsReadsV0ToVx x { t with i := s.i, v := between }).2 hin
  exact ⟨t, u, hstore, hload, fun k => ⟨fun hk => (hloaded k hk).trans (hstored k hk), hkept k⟩⟩

/-- Settles O46: each is one write of I, of which only the sum can wrap. -/
theorem indexRegisterIsSet : Obligations.IndexRegisterIsSet := by
  refine fun nnn x s => ⟨⟨_, rfl, toNat_addrOperand nnn, rfl, ?_⟩, ⟨_, rfl, ?_, rfl, ?_⟩,
    ⟨_, rfl, toNat_wideOperand_mul_five s.v[x], rfl, ?_⟩⟩
  · exact exec_unchangedBut (i := .ldI nnn) rfl rfl fun _ _ => id
  · exact (BitVec.toNat_add s.i (wideOperand s.v[x])).trans (by rw [toNat_wideOperand])
  · exact exec_unchangedBut (i := .addI x) rfl rfl fun _ _ => id
  · exact exec_unchangedBut (i := .ldF x) rfl rfl fun _ _ => id

end Sys2Proof.Machine

namespace Sys2Proof.Machine

/-! ### Drawing as the XOR of a set of pixels (45_display.md R131) -/

/-- From `a` to `b`, each a framebuffer and the collision seen so far, exactly the pixels in `covered` are toggled,
and those of them that were on add to the collision. -/
structure XorsOn (covered : Fin 64 → Fin 32 → Prop) (a b : Framebuffer × Bool) : Prop where
  changed : ∀ px py, pixel b.1 px py ≠ pixel a.1 px py ↔ covered px py
  collision : b.2 = true ↔ a.2 = true ∨ ∃ px py, covered px py ∧ pixel a.1 px py = true

section
variable {P Q : Fin 64 → Fin 32 → Prop} {a b c : Framebuffer × Bool}

theorem XorsOn.refl (h : ∀ px py, ¬P px py) : XorsOn P a a where
  changed px py := by simp [h]
  collision := by simp [h]

/-- Two draws one after the other that share no pixel: the second finds its pixels as the first did. -/
theorem XorsOn.trans (hab : XorsOn P a b) (hbc : XorsOn Q b c) (hdisj : ∀ px py, P px py → ¬Q px py) :
    XorsOn (fun px py => P px py ∨ Q px py) a c := by
  have hkept (px : Fin 64) (py : Fin 32) (hQ : Q px py) : pixel b.1 px py = pixel a.1 px py :=
    not_not.1 fun hne => hdisj px py ((hab.changed px py).1 hne) hQ
  constructor
  case changed =>
    intro px py
    by_cases hQ : Q px py
    · rw [← hkept px py hQ, hbc.changed]
      exact (or_iff_right fun hP => hdisj px py hP hQ).symm
    · rw [not_not.1 (mt (hbc.changed px py).1 hQ), hab.changed]
      exact (or_iff_left hQ).symm
  case collision =>
    have hseen : (∃ px py, Q px py ∧ pixel b.1 px py = true) ↔ ∃ px py, Q px py ∧ pixel a.1 px py = true :=
      exists₂_congr fun px py => and_congr_right fun hQ => by rw [hkept px py hQ]
    simp only [hbc.collision, hab.collision, hseen, or_and_right, exists_or, or_assoc]

/-- A loop whose rounds cover disjoint sets of pixels covers their union. -/
theorem XorsOn.foldl {ι : Type} {f : Framebuffer × Bool → ι → Framebuffer × Bool}
    {covered : ι → Fin 64 → Fin 32 → Prop} (hround : ∀ a k, XorsOn (covered k) a (f a k)) {l : List ι}
    (hdisj : l.Pairwise fun j k => ∀ px py, covered j px py → ¬covered k px py) (a : Framebuffer × Bool) :
    XorsOn (fun px py => ∃ k ∈ l, covered k px py) a (l.foldl f a) := by
  induction l generalizing a with
  | nil => exact .refl (by simp)
  | cons k l ih =>
    obtain ⟨hk, hl⟩ := List.pairwise_cons.1 hdisj
    simpa using (hround a k).trans (ih hl (f a k)) fun px py hcov ⟨j, hj, hcov'⟩ => hk j hj px py hcov hcov'

end

/-! ### One pixel, one row, the whole sprite -/

section
variable {x0 y0 : Byte}

theorem xor_ne_self_iff : ∀ {a b : Bool}, (a ^^ b) ≠ a ↔ b = true := by decide

theorem drawPixel_xorsOn (b x0 : Byte) (row : Fin 32) (acc : Framebuffer × Bool) (c : Nat) :
    XorsOn (fun px py => spriteBit b c = true ∧ px = spriteColumn x0 c ∧ py = row) acc (drawPixel b x0 row acc c) := by
  unfold drawPixel
  split
  · next hbit =>
    constructor
    case changed =>
      intro px py
      rw [pixel_togglePixel, xor_ne_self_iff, decide_eq_true_iff, and_iff_right hbit]
    case collision => simp [hbit]
  · next hbit => exact .refl fun _ _ hcov => hbit hcov.1

/-- The 8 columns of a row are different ones: the wrap is at 64. -/
theorem spriteColumn_ne {c d : Nat} (hcd : c < d) (hd : d < 8) : spriteColumn x0 c ≠ spriteColumn x0 d := by
  simp only [spriteColumn, ne_eq, Fin.mk.injEq]
  omega

/-- Up to 32 rows of a sprite are different ones: the wrap is at 32. -/
theorem spriteRow_ne {r q : Nat} (hrq : r < q) (hq : q < 32) : spriteRow y0 r ≠ spriteRow y0 q := by
  simp only [spriteRow, ne_eq, Fin.mk.injEq]
  omega

/-- The pixels that the set bits of a sprite byte fall on. -/
def rowCovers (b x0 : Byte) (row : Fin 32) (px : Fin 64) (py : Fin 32) : Prop :=
  ∃ c ∈ List.range 8, spriteBit b c = true ∧ px = spriteColumn x0 c ∧ py = row

/-- The pixels that the set bits of a sprite fall on; the rows are numbered from 0. -/
def spriteCovers (x0 y0 : Byte) (sprite : List Byte) (px : Fin 64) (py : Fin 32) : Prop :=
  ∃ p ∈ sprite.zipIdx, rowCovers p.1 x0 (spriteRow y0 p.2) px py

theorem drawRow_xorsOn (b x0 : Byte) (row : Fin 32) (acc : Framebuffer × Bool) :
    XorsOn (rowCovers b x0 row) acc (drawRow b x0 row acc) := by
  refine .foldl (drawPixel_xorsOn b x0 row) (List.pairwise_lt_range.imp_of_mem ?_) acc
  rintro c d - hd hcd px py ⟨-, hc, -⟩ ⟨-, hd', -⟩
  exact spriteColumn_ne hcd (List.mem_range.1 hd) (hc.symm.trans hd')

theorem drawRows_eq_foldl (x0 y0 : Byte) (r : Nat) (sprite : List Byte) (acc : Framebuffer × Bool) :
    drawRows x0 y0 r sprite acc =
      (sprite.zipIdx r).foldl (fun acc p => drawRow p.1 x0 (spriteRow y0 p.2) acc) acc := by
  induction sprite generalizing r acc with
  | nil => rfl
  | cons b bs ih => exact ih (r + 1) _

theorem drawSprite_xorsOn {sprite : List Byte} (hlen : sprite.length ≤ 32) (fb : Framebuffer) (x0 y0 : Byte) :
    XorsOn (spriteCovers x0 y0 sprite) (fb, false) (drawSprite fb x0 y0 sprite) := by
  have hrising : sprite.zipIdx.Pairwise fun p q => p.2 < q.2 := by
    rw [← List.pairwise_map (f := Prod.snd), List.zipIdx_map_snd]
    exact List.pairwise_lt_range'
  rw [drawSprite, drawRows_eq_foldl]
  refine .foldl (fun acc p => drawRow_xorsOn p.1 x0 (spriteRow y0 p.2) acc) (hrising.imp_of_mem ?_) _
  rintro p q - hq hpq px py ⟨_, -, -, -, hp⟩ ⟨_, -, -, -, hq'⟩
  exact spriteRow_ne hpq ((List.snd_lt_of_mem_zipIdx hq).trans_le (by simpa using hlen)) (hp.symm.trans hq')

@[simp] theorem length_spriteBytes (s : State) (n : Fin 16) : (spriteBytes s n).length = n.val :=
  Memory.length_readBytes ..

theorem getElem_spriteBytes (s : State) (n : Fin 16) {r : Nat} (hr : r < (spriteBytes s n).length) :
    (spriteBytes s n)[r] = Memory.read s.mem (baseAddr s + r) :=
  Memory.getElem_readBytes ..

/-- The sprite of Dxyn covers pixels from the bytes at I on, bit 7 leftmost (R130). -/
theorem spriteCovers_spriteBytes_iff (s : State) (n : Fin 16) (px : Fin 64) (py : Fin 32) :
    spriteCovers x0 y0 (spriteBytes s n) px py ↔
      ∃ r c : Nat, r < n.val ∧ c < 8 ∧ px.val = (x0.toNat + c) % 64 ∧ py.val = (y0.toNat + r) % 32 ∧
        (Memory.read s.mem (baseAddr s + r)).getLsbD (7 - c) = true := by
  constructor
  · rintro ⟨⟨b, r⟩, hmem, c, hc, hbit, rfl, rfl⟩
    obtain ⟨hr, rfl⟩ := List.getElem?_eq_some_iff.1 (List.mk_mem_zipIdx_iff_getElem?.1 hmem)
    rw [getElem_spriteBytes] at hbit
    exact ⟨r, c, length_spriteBytes s n ▸ hr, List.mem_range.1 hc, rfl, rfl, hbit⟩
  · rintro ⟨r, c, hr, hc, hpx, hpy, hbit⟩
    have hlen : r < (spriteBytes s n).length := (length_spriteBytes s n).symm ▸ hr
    refine ⟨((spriteBytes s n)[r], r), List.mk_mem_zipIdx_iff_getElem?.2 (List.getElem?_eq_getElem hlen), c,
      List.mem_range.2 hc, ?_, Fin.ext hpx, Fin.ext hpy⟩
    rwa [getElem_spriteBytes]

end

/-! ### The instruction (R131, R132) -/

section
variable {x y : Reg} {n : Fin 16} {s : State}

theorem exec_drw_of_inside (h : n.val = 0 ∨ s.i.toNat + (n.val - 1) ≤ 4095) : exec (.drw x y n) s =
    .next (advance (((s.setV regF (flagByte (drawSprite s.fb s.v[x] s.v[y] (spriteBytes s n)).2)).setFb
      (drawSprite s.fb s.v[x] s.v[y] (spriteBytes s n)).1).setDraw true)) := by
  have hcheck : boundsCheck (baseAddr s) n.val = none :=
    boundsCheck_eq_none.2 (by simp only [baseAddr, Config.memSize]; omega)
  rw [exec, execDrw, hcheck, guarded_none]
  rfl

theorem exec_drw_of_outside (hn : n.val ≥ 1) (h : s.i.toNat + (n.val - 1) > 4095) :
    exec (.drw x y n) s = .next (s.setFault 3) := by
  rw [exec, execDrw, ← Nat.sub_add_cancel hn]
  exact guarded_boundsCheck_of_gt h

end

/-- From a clear flag, the collision says whether a pixel that was on is now off. -/
theorem XorsOn.collision_iff {P : Fin 64 → Fin 32 → Prop} {fb : Framebuffer} {b : Framebuffer × Bool}
    (h : XorsOn P (fb, false) b) :
    b.2 = true ↔ ∃ (px : Fin 64) (py : Fin 32), pixel fb px py = true ∧ pixel b.1 px py = false := by
  rw [h.collision, or_iff_right Bool.false_ne_true]
  refine exists₂_congr fun px py => ?_
  rw [← h.changed, and_comm]
  exact and_congr_right fun hon => by rw [hon]; exact Bool.eq_false_iff.symm

/-- Settles O52: the loops toggle disjoint sets of pixels, one for each set bit of the sprite. -/
theorem drawXorsEveryPixel : Obligations.DrawXorsEveryPixel := by
  refine fun x y n s => ⟨fun h => exec_drw_of_outside h.1 h.2, fun hin => ⟨_, exec_drw_of_inside hin, ?_⟩⟩
  have hdraw := drawSprite_xorsOn (sprite := spriteBytes s n) (by rw [length_spriteBytes]; omega) s.fb s.v[x] s.v[y]
  refine ⟨fun px py => (hdraw.changed px py).trans (spriteCovers_spriteBytes_iff s n px py), ?_,
    fun r => getElem_setV_of_ne, rfl, rfl, exec_unchangedBut (exec_drw_of_inside hin) rfl nofun⟩
  refine getElem_setV_same.trans ?_
  rw [flagByte]
  exact if_congr hdraw.collision_iff rfl rfl

/-- A bit that changes twice or never ends as it began. -/
theorem eq_of_ne_iff_ne : ∀ {a b c : Bool}, (a ≠ b ↔ b ≠ c) → a = c := by decide

/-- Settles O53: both draws cover the same pixels, so the second toggles what the first did and turns off what the
first turned on. -/
theorem drawTwiceRestores : Obligations.DrawTwiceRestores := by
  intro x y n s hx hy hin
  obtain ⟨t, ht, hfirst, -, hregs, -, -, hkept⟩ := (drawXorsEveryPixel x y n s).2 hin
  obtain ⟨-, hi, -, -, -, -, -, hmem, -⟩ := hkept
  have hi : t.i = s.i := hi rfl
  obtain ⟨u, hu, hsecond, hflag, -⟩ := (drawXorsEveryPixel x y n t).2 (by rwa [hi])
  simp only [hregs x hx, hregs y hy, hmem rfl, baseAddr, hi] at hsecond
  have hfb : u.fb = s.fb :=
    framebuffer_ext fun px py => eq_of_ne_iff_ne ((hsecond px py).trans (hfirst px py).symm)
  refine ⟨t, u, ht, hu, hfb, ?_⟩
  rw [hflag, hfb]
  simp [and_comm]

end Sys2Proof.Machine

namespace Sys2Proof.Machine

/-! ### The key wait and the timer writes (46_timers_input.md R141 to R143) -/

section
variable {s : State} {x : Reg} {k : Fin 16}

theorem leastKey_eq_find? (s : State) : leastKey s = Fin.find? fun k : Fin 16 => s.keys[k] :=
  Fin.find?_eq_find?_finRange.symm

/-- The scan finds a key exactly when it is pressed and no lower one is (R141). -/
theorem leastKey_eq_some_iff :
    leastKey s = some k ↔ s.keys[k] = true ∧ ∀ j : Fin 16, j < k → s.keys[j] = false := by
  rw [leastKey_eq_find?, Fin.find?_eq_some_iff]

theorem leastKey_eq_none_iff : leastKey s = none ↔ ∀ k : Fin 16, s.keys[k] = false := by
  rw [leastKey_eq_find?, Fin.find?_eq_none_iff]

theorem exec_ldVxK_of_some (h : leastKey s = some k) :
    exec (.ldVxK x) s = .next (advance (s.setV x (BitVec.ofNat 8 k.val))) := by
  rw [exec, execLdVxK, h]

theorem exec_ldVxK_of_none (h : leastKey s = none) : exec (.ldVxK x) s = .next s := by
  rw [exec, execLdVxK, h]

/-- A key number fits in a byte. -/
theorem toNat_ofNat_key (k : Fin 16) : (BitVec.ofNat 8 k.val).toNat = k.val :=
  (BitVec.toNat_ofNat k.val 8).trans (Nat.mod_eq_of_lt (k.isLt.trans (by decide)))

end

/-- Settles O55: the scan decides between waiting and the write of one register. -/
theorem keyWaitTakesLeastKey : Obligations.KeyWaitTakesLeastKey := by
  refine fun x s => ⟨fun hnone => exec_ldVxK_of_none (leastKey_eq_none_iff.2 hnone), fun k hk hleast => ?_⟩
  obtain ⟨t, ht, hval, hframe⟩ := exists_next_of_setV (exec_ldVxK_of_some (leastKey_eq_some_iff.2 ⟨hk, hleast⟩))
  exact ⟨t, ht, (congrArg BitVec.toNat hval).trans (toNat_ofNat_key k), hframe⟩

/-- Settles O54: each is one timer write and the PC write. -/
theorem timerWritesCopyVx : Obligations.TimerWritesCopyVx := fun x s =>
  ⟨congrArg Host.Outcome.next (advance_eq (s.setDt s.v[x])), congrArg Host.Outcome.next (advance_eq (s.setSt s.v[x]))⟩

end Sys2Proof.Machine

namespace Sys2Proof.Machine

/-! ### The fault check of each instruction (60_exceptions.md R156, R157) -/

/-- The check that `exec` makes before the effect of an instruction: R156's table read by instruction. -/
def faultCheck : Instr → State → Option Cause
  | .call _, s => if s.sp = 15 then some (.stackOverflow s.pc) else none
  | .ret, s => if s.sp = 0 then some (.stackUnderflow s.pc) else none
  | .drw _ _ n, s => boundsCheck (s.i.toNat) n.val
  | .ldB _, s => boundsCheck (s.i.toNat) 3
  | .storeRegs x, s | .loadRegs x, s => boundsCheck (s.i.toNat) (x.val + 1)
  | .skp x, s | .sknp x, s => keyCheck s.v[x]
  | _, _ => none

/-- The code that FAULT takes for the outcome of a check, 0 when it found no cause (R156, decision D24). -/
def checkCode (check : Option Cause) : BitVec 3 := check.elim 0 causeCode

section
variable {i : Instr} {s t : State} {a : Byte} {c : Cause} {base count : Nat} {p : Prop} [Decidable p]

/-- Every instruction is its fault check, then an effect that leaves FAULT alone (R157). -/
theorem exec_eq_guarded (i : Instr) (s : State) :
    ∃ effect, exec i s = guarded (faultCheck i s) s effect ∧ effect.fault = s.fault := by
  cases i with
  | ldVxK x =>
    cases hkey : leastKey s with
    | none => exact ⟨s, exec_ldVxK_of_none hkey, rfl⟩
    | some k => exact ⟨_, exec_ldVxK_of_some hkey, rfl⟩
  | _ => exact ⟨_, rfl, rfl⟩

/-- An instruction latches the cause that its check found and changes nothing else (R151), or leaves FAULT alone. -/
theorem exec_fault_cases (h : exec i s = .next t) :
    (∃ c, faultCheck i s = some c ∧ t = s.setFault (causeCode c)) ∨ (faultCheck i s = none ∧ t.fault = s.fault) := by
  obtain ⟨effect, hexec, heffect⟩ := exec_eq_guarded i s
  obtain ⟨c, hc, hg⟩ | ⟨hc, hg⟩ := guarded_cases (faultCheck i s) s effect
  · cases (hexec.trans hg).symm.trans h
    exact .inl ⟨c, hc, rfl⟩
  · cases (hexec.trans hg).symm.trans h
    exact .inr ⟨hc, heffect⟩

/-- With no fault latched before, FAULT is the code of what the check found. -/
theorem exec_fault_eq_checkCode (hrun : s.running) (h : exec i s = .next t) : t.fault = checkCode (faultCheck i s) := by
  obtain ⟨c, hc, rfl⟩ | ⟨hc, hkept⟩ := exec_fault_cases h
  · rw [hc]
    rfl
  · rw [hc]
    exact hkept.trans hrun

/-! ### The code of each check -/

@[simp] theorem checkCode_none : checkCode none = 0 := rfl

@[simp] theorem checkCode_ite : checkCode (if p then some c else none) = if p then causeCode c else 0 :=
  apply_ite checkCode p (some c) none

@[simp] theorem checkCode_boundsCheck :
    checkCode (boundsCheck base count) = if count ≥ 1 ∧ base + (count - 1) > 4095 then 3 else 0 := by
  split
  · next h =>
    rw [boundsCheck_of_gt (Nat.one_le_iff_ne_zero.1 h.1) (by simp only [Config.memSize]; omega)]
    rfl
  · next h =>
    rw [boundsCheck_eq_none.2 (by simp only [Config.memSize]; omega)]
    rfl

@[simp] theorem checkCode_keyCheck : checkCode (keyCheck a) = if a.toNat > 15 then 4 else 0 := checkCode_ite

theorem checkCode_le (check : Option Cause) : (checkCode check).toNat ≤ 4 := by
  cases check with
  | none => decide
  | some c => exact causeCode_le c

/-! ### R156's table read by fault -/

/-- StackOverflow (R153). -/
theorem checkCode_faultCheck_eq_one_iff :
    checkCode (faultCheck i s) = 1 ↔ s.sp = 15 ∧ ∃ nnn, i = .call nnn := by
  cases i <;> simp [faultCheck, causeCode, ite_eq_iff]

/-- StackUnderflow (R153). -/
theorem checkCode_faultCheck_eq_two_iff : checkCode (faultCheck i s) = 2 ↔ s.sp = 0 ∧ i = .ret := by
  cases i <;> simp [faultCheck, causeCode, ite_eq_iff]

/-- MemoryBounds (R154). -/
theorem checkCode_faultCheck_eq_three_iff : checkCode (faultCheck i s) = 3 ↔
    (∃ x y n, i = .drw x y n ∧ n.val ≥ 1 ∧ s.i.toNat + (n.val - 1) > 4095) ∨
      (∃ x, i = .ldB x ∧ s.i.toNat + 2 > 4095) ∨
      ∃ x, (i = .storeRegs x ∨ i = .loadRegs x) ∧ s.i.toNat + x.val > 4095 := by
  cases i <;> simp +arith [faultCheck, causeCode, ite_eq_iff]

/-- KeyIndex (R155). -/
theorem checkCode_faultCheck_eq_four_iff :
    checkCode (faultCheck i s) = 4 ↔ ∃ x, (i = .skp x ∨ i = .sknp x) ∧ s.v[x].toNat > 15 := by
  cases i <;> simp [faultCheck, causeCode, ite_eq_iff]

/-! ### The step (30_encoding.md R60) -/

/-- With no fault latched a step is the fetched instruction, DRAW cleared after it. -/
theorem step_of_exec (hrun : s.running) (h : exec (decodeWord (fetch s)) s = .next t) :
    step s = .next (t.setDraw false) := by
  rw [step_of_running hrun, fetchExecute, h, clearDraw]

end

/-- Settles O12: a faulted state steps to itself, any other by its instruction. -/
theorem everyStateHasAStep : Obligations.EveryStateHasAStep := by
  refine ⟨fun s => ?_, exists_exec_eq_next⟩
  by_cases hrun : s.running
  · obtain ⟨t, ht⟩ := exists_exec_eq_next (decodeWord (fetch s)) s
    exact ⟨_, step_of_exec hrun ht⟩
  · exact ⟨s, step_of_faulted hrun⟩

/-- Settles O14: the instruction changed FAULT, so it changed nothing else, and DRAW was 0 already. -/
theorem faultsArePrecise : Obligations.FaultsArePrecise := by
  intro s t hrun hdraw hstep hfault
  obtain ⟨-, hlatched⟩ | ⟨-, u, hu, rfl⟩ := step_cases hstep
  · exact absurd hrun hlatched
  obtain ⟨c, -, rfl⟩ | ⟨-, hkept⟩ := exec_fault_cases hu
  · rw [stepReport_of_running hrun hu, State.setDraw, ← hdraw]
    exact ⟨rfl, rfl⟩
  · exact absurd (hkept.trans hrun) hfault

/-- Settles O15: FAULT is the code of the check, and each code has its instructions. -/
theorem faultCausesAreComplete : Obligations.FaultCausesAreComplete := by
  intro s hrun
  obtain ⟨t, ht⟩ := exists_exec_eq_next (decodeWord (fetch s)) s
  refine ⟨_, step_of_exec hrun ht, ?_⟩
  rw [State.setDraw_fault, exec_fault_eq_checkCode hrun ht]
  exact ⟨checkCode_le _, checkCode_faultCheck_eq_one_iff, checkCode_faultCheck_eq_two_iff,
    checkCode_faultCheck_eq_three_iff, checkCode_faultCheck_eq_four_iff⟩

/-- Settles O10: the fault gate of the step and of its report. -/
theorem faultedStepChangesNothing : Obligations.FaultedStepChangesNothing :=
  fun _ h => ⟨step_of_faulted h, stepReport_of_faulted h⟩

end Sys2Proof.Machine

namespace Sys2Proof.Machine

/-! ### The host's operations (60_exceptions.md R160, R161; 70_reset_and_hazards.md R172) -/

section
variable {s t : State} {op : HostOp} {ops : List HostOp}

/-- The counters are floored at 0 (R160). -/
theorem toNat_countDown (b : Byte) : (countDown b).toNat = b.toNat - 1 := by
  unfold countDown
  split
  · next h => rw [h]; rfl
  · next h => bv_omega

/-- A write of one entry of the key latch, read back. -/
theorem getElem_setKeyAt (s : State) (k j : Fin 16) (b : Bool) :
    (s.setKeyAt k b).keys[j] = if j = k then b else s.keys[j] := by
  simp only [State.setKeyAt_keys, Fin.getElem_fin, Vector.getElem_set, Fin.ext_iff, eq_comm]

/-- An accepted load stores inside MEM, so MEM stays in canonical form. -/
theorem loadProgram_keeps_inv {bytes : List Byte} (hs : s.inv) (h : loadProgram bytes s = .ok t) : t.inv := by
  obtain ⟨-, hl⟩ | ⟨hlen, hl⟩ := loadProgram_cases bytes s
  · cases hl.symm.trans h
  · cases hl.symm.trans h
    obtain ⟨hmem, hrest⟩ := hs
    have hend : Config.progBase + bytes.length ≤ Config.memSize := Nat.add_le_add_left hlen Config.progBase
    exact ⟨Memory.wf_writeBytes hmem hend, hrest⟩

/-! ### Runs of host operations from a faulted state (60_exceptions.md R152, R164) -/

/-- A sequence of operations answers a next state when its first one does and the rest do from there. -/
theorem runOps_cons_eq_next :
    runOps (op :: ops) s = .next t ↔ ∃ u, hostOp op s = .next u ∧ runOps ops u = .next t := by
  rw [runOps]
  cases hostOp op s <;> simp

/-- While a fault is latched a host operation writes at most DT, ST and KEYS. -/
theorem hostOp_of_faulted (hs : s.fault ≠ 0) (h : hostOp op s = .next t) :
    ∃ dt st keys, t = { s with dt := dt, st := st, keys := keys } := by
  cases op with
  | step =>
    cases (step_of_faulted hs).symm.trans h
    exact ⟨_, _, _, rfl⟩
  | tickTimers | setKey =>
    cases h
    exact ⟨_, _, _, rfl⟩

/-- So does any sequence of them, since FAULT stays latched. -/
theorem runOps_of_faulted (hs : s.fault ≠ 0) (h : runOps ops s = .next t) :
    ∃ dt st keys, t = { s with dt := dt, st := st, keys := keys } := by
  induction ops generalizing s with
  | nil =>
    cases h
    exact ⟨_, _, _, rfl⟩
  | cons op ops ih =>
    obtain ⟨u, hop, hrest⟩ := runOps_cons_eq_next.1 h
    obtain ⟨dt, st, keys, rfl⟩ := hostOp_of_faulted hs hop
    exact ih (s := { s with dt := dt, st := st, keys := keys }) hs hrest

end

/-- Settles O16: a run from a faulted state writes only DT, ST and KEYS. -/
theorem faultIsSticky : Obligations.FaultIsSticky := by
  intro ops s t hs h
  obtain ⟨dt, st, keys, rfl⟩ := runOps_of_faulted hs h
  simp [unchangedBut]

/-- Settles O19: no part that the invariant names is written by a tick or a key change. -/
theorem hostOperationsKeepInvariant : Obligations.HostOperationsKeepInvariant :=
  fun _ hinv => ⟨hinv, fun _ _ => hinv, fun _ _ => loadProgram_keeps_inv hinv⟩

/-- Settles O24: two writes, of the counted-down values. -/
theorem tickCountsDown : Obligations.TickCountsDown :=
  fun s => ⟨toNat_countDown s.dt, toNat_countDown s.st, by simp [unchangedBut, tickTimers]⟩

/-- Settles O25: one write of the latch. -/
theorem setKeySetsOneEntry : Obligations.SetKeySetsOneEntry := by
  refine fun k b s => ⟨?_, fun j hj => ?_, by simp [unchangedBut, setKey]⟩
  · rw [setKey, getElem_setKeyAt, if_pos rfl]
  · rw [setKey, getElem_setKeyAt, if_neg hj]

end Sys2Proof.Machine

namespace Sys2Proof.Machine

/-! ### The placed instruction (log entry 12) -/

/-- Decoding the laid-out bytes of the opcode table's word reads that word. -/
theorem decodeTableWord_eq (nbits w : Nat) : decodeTableWord nbits w = some (decodeWord (tableWord nbits w)) := by
  have hdec : decode (wordBytes (tableWord nbits w)) = .ok (decodeWord (tableWord nbits w), []) :=
    decode_wordBytes (tableWord nbits w) []
  rw [decodeTableWord, hdec]

section
variable (s : State) (w : Word)

/-- The word is stored where the state after the placing has its PC. -/
theorem placeWord_mem : (placeWord s w).mem = Memory.writeBytes s.mem (placeWord s w).pc.toNat (wordBytes w) := rfl

/-- Wherever PC was, both bytes at the PC of the placing are inside MEM. -/
theorem placeWord_pc_inside : (placeWord s w).pc.toNat + 1 < Config.memSize := by
  simp only [placeWord, State.setMem_pc, State.setPc_pc]
  split
  · decide
  · next hin => exact Nat.lt_succ_of_le (Nat.not_lt.1 hin)

theorem fetch_placeWord (hm : Memory.wf s.mem) : fetch (placeWord s w) = w := by
  have hread {k : Nat} (hk : k < (wordBytes w).length) :=
    Memory.read_writeBytes_add (base := (placeWord s w).pc.toNat) hm hk
  rw [fetch_of_inside (placeWord_pc_inside s w), placeWord_mem]
  exact (congrArg₂ (· ++ ·) (hread Nat.two_pos) (hread Nat.one_lt_two)).trans (highByte_append_lowByte w)

end

/-- Settles O13: no fault is latched after the placing, and the fetch reads the placed word back. -/
theorem placedWordRunsNext : Obligations.PlacedWordRunsNext := by
  intro s nbits w i hm hi
  have hdec : decodeWord (tableWord nbits w) = i := Option.some.inj ((decodeTableWord_eq nbits w).symm.trans hi)
  have hrun : (s.withFetchWord nbits w).running := rfl
  have hfetch : fetch (s.withFetchWord nbits w) = tableWord nbits w := fetch_placeWord s _ hm
  rw [step_of_running hrun, fetchExecute, hfetch, hdec]

/-! ### Loading a program (70_reset_and_hazards.md R171 to R173) -/

theorem loadProgram_of_gt {bytes : List Byte} (s : State) (h : bytes.length > 3584) :
    loadProgram bytes s = .invalidSize := if_pos h

theorem loadProgram_of_le {bytes : List Byte} (s : State) (h : bytes.length ≤ 3584) :
    loadProgram bytes s = .ok (s.setMem (Memory.writeBytes s.mem 0x200 bytes)) := if_neg (Nat.not_lt.2 h)

/-- Settles O22: an accepted load is one run of writes from 0x200. -/
theorem loadWritesProgramArea : Obligations.LoadWritesProgramArea := by
  refine fun bytes s hm => ⟨loadProgram_of_gt s, fun hlen => ⟨_, loadProgram_of_le s hlen, ?_, fun k hk => ?_, ?_⟩⟩
  · simp [unchangedBut]
  · exact (Memory.read_writeBytes_add hm hk).trans (List.getD_eq_getElem bytes 0 hk).symm
  · exact fun a => Memory.read_writeBytes_of_outside hm

/-- After reset and a load, the program area reads as the image, then as the zeros of reset. -/
theorem Memory.read_load_resetWith (font : Font) (rom : List Byte) (k : Nat) :
    Memory.read (Memory.writeBytes (State.resetWith font).mem 0x200 rom) (0x200 + k) = rom.getD k 0 := by
  by_cases hk : k < rom.length
  · rw [Memory.read_writeBytes_add (Memory.wf_resetWith font) hk, List.getD_eq_getElem rom 0 hk]
  · rw [Memory.read_writeBytes_of_outside (Memory.wf_resetWith font) (by omega), Memory.read_resetWith,
      dif_neg (by omega), List.getD_eq_default rom 0 (Nat.not_lt.1 hk)]

/-- Settles O23: a load leaves PC alone, and the fetch reads the first two addresses of the program area. -/
theorem firstFetchReadsProgramStart : Obligations.FirstFetchReadsProgramStart := by
  refine fun font => ⟨rfl, fun rom hlen => ⟨_, loadProgram_of_le _ hlen, rfl, ?_⟩⟩
  rw [fetch_of_pc_eq (a := 0x200) rfl (by decide), toNat_append_bytes]
  have hread := Memory.read_load_resetWith font rom
  exact congrArg₂ (fun hi lo : Byte => 256 * hi.toNat + lo.toNat) (hread 0) (hread 1)

/-! ### Reset (70_reset_and_hazards.md R170, 10_state.md R23) -/

/-- Settles O21: only MEM depends on the font; every other part is that of `State.reset`. -/
theorem resetSetsEveryPiece : Obligations.ResetSetsEveryPiece := by
  refine ⟨State.resetWith_defaultFont.symm, ?_⟩
  rintro font _ rfl
  have hv : ∀ r : Reg, State.reset.v[r] = 0 := by decide
  have hstack : ∀ k : Fin 16, State.reset.stack[k] = 0 := by decide
  have hkeys : ∀ k : Fin 16, State.reset.keys[k] = false := by decide
  have hfont (a : Fin 80) : Memory.read (State.resetWith font).mem a = font[a] :=
    (Memory.read_resetWith font a).trans (dif_pos a.isLt)
  have hzero (a : Nat) (ha : 0x050 ≤ a) : Memory.read (State.resetWith font).mem a = 0 :=
    (Memory.read_resetWith font a).trans (dif_neg (Nat.not_lt.2 ha))
  exact ⟨hv, rfl, rfl, rfl, hstack, rfl, rfl, hfont, hzero, pixel_blankFb, rfl, hkeys, rfl⟩

/-! ### Runs of the boot protocol (70_reset_and_hazards.md R174) -/

/-- One host operation completes and keeps the invariant (60_exceptions.md R164). -/
theorem exists_hostOp_eq_next (op : HostOp) {s : State} (hs : s.inv) : ∃ t, hostOp op s = .next t ∧ t.inv := by
  cases op with
  | step =>
    obtain ⟨t, ht⟩ := everyStateHasAStep.1 s
    exact ⟨t, ht, stepKeepsInvariant s t hs ht⟩
  | tickTimers => exact ⟨_, rfl, (hostOperationsKeepInvariant s hs).1⟩
  | setKey k b => exact ⟨_, rfl, (hostOperationsKeepInvariant s hs).2.1 k b⟩

/-- So does any sequence of them. -/
theorem exists_runOps_eq_next (ops : List HostOp) {s : State} (hs : s.inv) : ∃ t, runOps ops s = .next t ∧ t.inv := by
  induction ops generalizing s with
  | nil => exact ⟨s, rfl, hs⟩
  | cons op ops ih =>
    obtain ⟨u, hop, hu⟩ := exists_hostOp_eq_next op hs
    obtain ⟨t, hrest, ht⟩ := ih hu
    exact ⟨t, runOps_cons_eq_next.2 ⟨u, hop, hrest⟩, ht⟩

/-- A run of the boot protocol whose three parts are known. -/
theorem protocolRun_eq {font : Font} {early ops : List HostOp} {rom : List Byte} {s t : State}
    (hearly : early.all HostOp.mayPrecedeLoad = true) (hs : runOps early (State.resetWith font) = .next s)
    (ht : loadProgram rom s = .ok t) : protocolRun font early rom ops = some (runOps ops t) := by
  rw [protocolRun, if_pos hearly, hs]
  simp only [ht]

/-- Settles O20: reset meets the invariant, and each of the three parts completes and keeps it. -/
theorem protocolRunsComplete : Obligations.ProtocolRunsComplete := by
  intro font early rom ops hearly hlen
  obtain ⟨s, hs, hsinv⟩ := exists_runOps_eq_next early (State.inv_resetWith font)
  have hload := loadProgram_of_le s hlen
  obtain ⟨t, ht, htinv⟩ := exists_runOps_eq_next ops (loadProgram_keeps_inv hsinv hload)
  exact ⟨t, (protocolRun_eq hearly hs hload).trans (congrArg some ht), htinv⟩

/-! ### The end of a program (70_reset_and_hazards.md R178) -/

/-- Settles O31: the jump writes the PC that was there, and DRAW was 0 already. -/
theorem jumpToSelfIsStable : Obligations.JumpToSelfIsStable := by
  rintro s ⟨hrun, nnn, hdec, hpc⟩ hdraw
  have hjump : exec (decodeWord (fetch s)) s = .next s := by rw [hdec, exec, execJp, hpc, State.setPc]
  rw [step_of_exec hrun hjump, State.setDraw, ← hdraw]

end Sys2Proof.Machine
